-- ==== Sys2Proof/Word.lean ====
section
/-!
DEFINITION. The words of the sensor-data decoder and packet framer (SDF): spec 00_scope R8.
-/
namespace Sys2Proof

/-- An unsigned 8-bit value, `u8` of R8. -/
abbrev Byte := BitVec 8

/-- An unsigned 16-bit value, `u16` of R8: one axis's register pair. -/
abbrev Half := BitVec 16

/-- A 64-bit command word (R60). -/
abbrev Word := BitVec 64

/-- What one `Emit` hands to the output port: the packet's bytes, first byte first (R47). Its length is the list's. -/
abbrev Packet := List Byte

end Sys2Proof
end

