-- ==== Sys2Proof/Config.lean ====
section
/-!
DEFINITION. What the spec leaves open: the free parameter `TX_DROP` (20_memory R48, 92_eei_decisions D15). The fixed
parameters of 00_scope R6 stand in Machine/Params.lean.
-/
namespace Sys2Proof

/-- `TX_DROP` (OPEN parameter): whether the external transmitter drops the `k`-th packet SDF emits. A free value: no body,
so nothing can be proved of it (log 6). -/
opaque Config.txDrop : Nat → Bool

end Sys2Proof
end

