-- ==== Sys2Proof/Syntax.lean ====
section
/-!
DEFINITION. The SDF command set, revision 1 (30_encoding R61): one constructor of `Instr` per row of opcode_table.json,
and the types of its operands.
-/
namespace Sys2Proof

/-- Resolution mode (R24): it selects the right-shift amount and nothing else (R7). -/
inductive Mode where
  | normal8Bit
  | highRes12Bit
deriving DecidableEq, Repr

/-- Output profile (R25): it selects the scaling and the payload width (R7). -/
inductive Profile where
  | rawScaled
  | physicalUnit
deriving DecidableEq, Repr

/-- The three lanes, in packet order (R6 `AXES`, R99). -/
inductive Axis where
  | x
  | y
  | z
deriving DecidableEq, Repr

/-- The raw burst `RAW[0..5]`, little-endian pairs per axis (R42). -/
structure RawBurst where
  /-- `RAW[0]` -/
  xLsb : Byte
  /-- `RAW[1]` -/
  xMsb : Byte
  /-- `RAW[2]` -/
  yLsb : Byte
  /-- `RAW[3]` -/
  yMsb : Byte
  /-- `RAW[4]` -/
  zLsb : Byte
  /-- `RAW[5]` -/
  zMsb : Byte
deriving DecidableEq, Repr

/-- The commands (R61). -/
inductive Instr where
  /-- `NOP` (R80) -/
  | nop
  /-- `CFG <mode>, <profile>` (R81) -/
  | cfg (mode : Mode) (profile : Profile)
  /-- `SAMPLE <st>, <b0>, ..., <b5>` (R117): the sensor status byte and the raw burst -/
  | sample (st : Byte) (raw : RawBurst)
deriving DecidableEq, Repr

end Sys2Proof
end

