-- ==== Sys2Proof/WellFormed.lean ====
section
/-!
DEFINITION. Which commands and which words are well formed. The checks on words are written from the reserved fields of
30_encoding R60 to R64, R66 and R67, apart from the decoder, which follows the masks of R69.
-/
namespace Sys2Proof

/-- Every operand value of every command is legal (R24, R25: "there is no reserved value"; R64: "Every value of `ST` and of
each `RAW[k]` is legal"), so the type of `Instr` leaves no ill-formed command; what can be ill formed is a word. -/
def Instr.wellFormed : Instr → Bool
  | .nop => true
  | .cfg _ _ => true
  | .sample _ _ => true

/-- `OPC = w[63:60]` (R60). -/
def opcField (w : Word) : BitVec 4 := w.extractLsb' 60 4

/-- `RSV = w[59:56]` (R60). -/
def rsvField (w : Word) : BitVec 4 := w.extractLsb' 56 4

/-- `PAY = w[55:0]` (R60). -/
def payField (w : Word) : BitVec 56 := w.extractLsb' 0 56

/-- The opcode is one of the three that are not reserved (R66). -/
def opcodeDefined (w : Word) : Bool := opcField w == 0 || opcField w == 1 || opcField w == 2

/-- `RSV` is 0, as every opcode requires (R60, R67). -/
def rsvClear (w : Word) : Bool := rsvField w == 0

/-- A `NOP` word has payload 0 (R62, R67). -/
def nopPayloadClear (w : Word) : Bool := opcField w != 0 || payField w == 0

/-- A `CFG` word has `PAY[55:2] = 0` (R63, R67). -/
def cfgPayloadClear (w : Word) : Bool := opcField w != 1 || w.extractLsb' 2 54 == 0

/-- A word is legal when none of the reserved encodings of R66 and R67 applies to it. -/
def wordLegal (w : Word) : Bool :=
  opcodeDefined w && rsvClear w && nopPayloadClear w && cfgPayloadClear w

end Sys2Proof
end

