-- ==== Sys2Proof/Decode.lean ====
section
/-!
DEFINITION. Decoding of command words, total over all 2^64 of them (30_encoding R69), and the encoder, from the field
layouts of R62, R63 and R64. A word that is no command is rejected by the name of its reason.
-/
namespace Sys2Proof

/-- Why a word is illegal. SDF does not record the reason (R130); it is the decoder's own name for it. -/
inductive IllegalWord where
  /-- `OPC` is 0x3 to 0xF (R66) -/
  | reservedOpcode
  /-- `OPC` is 0x0, 0x1 or 0x2 and a bit its layout reserves is 1 (R67) -/
  | reservedBitSet
deriving DecidableEq, Repr

/-- `M`, encoding of R24: 0 Normal8Bit, 1 HighRes12Bit. -/
def modeOfBit : Bool → Mode
  | false => .normal8Bit
  | true => .highRes12Bit

/-- The bit that stands for a mode (R24). -/
def modeBit : Mode → Bool
  | .normal8Bit => false
  | .highRes12Bit => true

/-- `P`, encoding of R25: 0 raw-scaled, 1 physical-unit. -/
def profileOfBit : Bool → Profile
  | false => .rawScaled
  | true => .physicalUnit

/-- The bit that stands for a profile (R25). -/
def profileBit : Profile → Bool
  | .rawScaled => false
  | .physicalUnit => true

/-- One row of the opcode table: a word stands for the row when it equals `pattern` under `mask`. -/
structure OpcodeRow where
  mnemonic : String
  pattern : Word
  mask : Word
deriving DecidableEq, Repr

/-- The row of `NOP` (R62). -/
def nopRow : OpcodeRow := ⟨"NOP", 0x0000000000000000, 0xFFFFFFFFFFFFFFFF⟩

/-- The row of `CFG` (R63). -/
def cfgRow : OpcodeRow := ⟨"CFG", 0x1000000000000000, 0xFFFFFFFFFFFFFFFC⟩

/-- The row of `SAMPLE` (R64). -/
def sampleRow : OpcodeRow := ⟨"SAMPLE", 0x2000000000000000, 0xFF00000000000000⟩

/-- The opcode table (R61). -/
def opcodeTable : List OpcodeRow := [nopRow, cfgRow, sampleRow]

/-- The word stands for the row. -/
def rowMatches (r : OpcodeRow) (w : Word) : Bool := w &&& r.mask == r.pattern

/-- `RAW[k] = w[8k+7:8k]`, the burst byte `k` of a `SAMPLE` word (R45, R64). -/
def rawByte (w : Word) (k : Nat) : Byte := w.extractLsb' (8 * k) 8

/-- The six burst bytes of a `SAMPLE` word (R64). -/
def rawOfWord (w : Word) : RawBurst :=
  ⟨rawByte w 0, rawByte w 1, rawByte w 2, rawByte w 3, rawByte w 4, rawByte w 5⟩

/-- `ST = w[55:48]` (R64). -/
def stField (w : Word) : Byte := w.extractLsb' 48 8

/-- Why a word that matches no row is illegal (R66, R67). -/
def illegalReason (w : Word) : IllegalWord :=
  if opcodeDefined w then .reservedBitSet else .reservedOpcode

/-- `decode` of R69. -/
def decode (w : Word) : Except IllegalWord Instr :=
  if rowMatches nopRow w then .ok .nop
  else if rowMatches cfgRow w then .ok (.cfg (modeOfBit (w.getLsbD 0)) (profileOfBit (w.getLsbD 1)))
  else if rowMatches sampleRow w then .ok (.sample (stField w) (rawOfWord w))
  else .error (illegalReason w)

/-- The burst as the low 48 bits of a word: `RAW[5]` at the top, `RAW[0]` at the bottom (R45, R64). -/
def rawBits (raw : RawBurst) : BitVec 48 :=
  raw.zMsb ++ raw.zLsb ++ raw.yMsb ++ raw.yLsb ++ raw.xMsb ++ raw.xLsb

/-- The word of a command, laid out field by field: `OPC`, `RSV`, payload (R60, R62, R63, R64). -/
def encode : Instr → Word
  | .nop => (0x0#4 ++ 0x0#4 ++ 0#56 : BitVec 64)
  | .cfg m p => (0x1#4 ++ 0x0#4 ++ 0#54 ++ BitVec.ofBool (profileBit p) ++ BitVec.ofBool (modeBit m) : BitVec 64)
  | .sample st raw => (0x2#4 ++ 0x0#4 ++ st ++ rawBits raw : BitVec 64)

/-- The command the decoder reads from a table row's bits. A command word is taken whole (R46), so there is no order of
bytes to lay out: the `nbits` low bits are `w`'s and the bits above them are 0. No command is longer than 64 bits (R60). -/
def decodeTableWord (nbits w : Nat) : Option Instr :=
  if 64 < nbits then none
  else
    match decode (BitVec.ofNat 64 (w % 2 ^ nbits)) with
    | .ok i => some i
    | .error _ => none

end Sys2Proof
end

