-- ==== Sys2Proof/Machine/State.lean ====
section
/-!
DEFINITION. The state of SDF as plain data: the six fields of 10_state R23, and what its ports carry.
-/
namespace Sys2Proof.Machine

/-- What the host can do at SDF's ports (92_eei_decisions D3). Events happen one after another (R49). -/
inductive PortEvent where
  /-- the host presents a 64-bit word on the command port (R46, R60) -/
  | command (w : Word)
  /-- the host asserts the reset input (R160) -/
  | assertReset
  /-- the host releases the reset input (R161) -/
  | releaseReset
  /-- the host reads the `STATUS` port (R28) -/
  | readStatus
deriving DecidableEq, Repr

/-- The machine's state. The first six fields are SDF's whole architectural state (R23). The last four are the model's
own: what stands on SDF's ports (log 1, log 3, log 4, log 5). -/
structure State where
  /-- `CFG_VALID`: a `CFG` has been accepted since reset (R23, R26) -/
  cfgValid : Bool
  /-- `MODE` (R24) -/
  mode : Mode
  /-- `PROFILE` (R25) -/
  profile : Profile
  /-- `ERR_ILLEGAL`, sticky (R23, R27) -/
  errIllegal : Bool
  /-- `ERR_NOCFG`, sticky (R23, R27) -/
  errNocfg : Bool
  /-- `ERR_RECFG`, sticky (R23, R27) -/
  errRecfg : Bool
  /-- the level on the reset input: true while the host asserts it (R161) -/
  resetLine : Bool
  /-- what the host will do at the ports, in order, the next event first (R49) -/
  hostInput : List PortEvent
  /-- the packets handed to the output port, in emission order (R34, R47) -/
  emitted : List Packet
  /-- the values the host has read on the `STATUS` port, oldest first (R28) -/
  statusReads : List Byte
deriving DecidableEq, Repr

/-- SDF never stops: an error sets a flag and the next command executes (R131, R136, R139), so there is no fault. Nothing
raises one; the empty type is safe and unsafe nowhere (log 8). -/
inductive Fault where
deriving DecidableEq, Repr

/-- SDF has a meaning for every command and every illegal word (R66, R69), so no meaning refuses. -/
inductive Refusal where
  /-- raised by an arm of `exec` that has no meaning yet (there is none); it would be safe, the machine only stops -/
  | notModelled (mnemonic : String)
deriving DecidableEq, Repr

/-- The machine right after reset (R23, R160): every field 0, the reset input released, nothing presented, emitted or read
yet. -/
def State.reset : State where
  cfgValid := false
  mode := .normal8Bit
  profile := .rawScaled
  errIllegal := false
  errNocfg := false
  errRecfg := false
  resetLine := false
  hostInput := []
  emitted := []
  statusReads := []

end Sys2Proof.Machine
end

