-- ==== Sys2Proof/Machine/Flags.lean ====
section
/-!
DEFINITION. The error flags and the status port: 10_state R27, R28 and 60_exceptions R130.
-/
namespace Sys2Proof.Machine

/-- The three error conditions (R130). -/
inductive ErrorFlag where
  | illegal
  | nocfg
  | recfg
deriving DecidableEq, Repr

/-- The error's code, which is its `STATUS` bit number (R130). -/
def errorCode : ErrorFlag → Nat
  | .illegal => 4
  | .nocfg => 5
  | .recfg => 6

/-- The sticky flag of an error condition (R23). -/
def errorFlag (s : State) : ErrorFlag → Bool
  | .illegal => s.errIllegal
  | .nocfg => s.errNocfg
  | .recfg => s.errRecfg

/-- `STATUS = {0, ERR_RECFG, ERR_NOCFG, ERR_ILLEGAL, 0, PROFILE, MODE, CFG_VALID}` (R28). -/
def statusPort (s : State) : Byte :=
  (BitVec.ofBool false ++ BitVec.ofBool s.errRecfg ++ BitVec.ofBool s.errNocfg ++ BitVec.ofBool s.errIllegal ++
    BitVec.ofBool false ++ BitVec.ofBool (profileBit s.profile) ++ BitVec.ofBool (modeBit s.mode) ++
    BitVec.ofBool s.cfgValid : BitVec 8)

end Sys2Proof.Machine
end

