-- ==== Sys2Proof/Machine/Ops.lean ====
section
/-!
DEFINITION. The named operations on the state. There are no registers and no memory to access (10_state R20, 20_memory
R40); there is no trap to return from (60_exceptions R136, R137), so `raiseError` stands alone.
-/
namespace Sys2Proof.Machine

/-- `raise Error(f)` (R9, R131): the flag becomes 1 and the command has no other effect. -/
def raiseError (f : ErrorFlag) (s : State) : State :=
  match f with
  | .illegal => { s with errIllegal := true }
  | .nocfg => { s with errNocfg := true }
  | .recfg => { s with errRecfg := true }

/-- The first `CFG` after reset writes the configuration (R81). -/
def configure (m : Mode) (p : Profile) (s : State) : State :=
  { s with mode := m, profile := p, cfgValid := true }

/-- `Emit(p)` (R47): the whole packet, as one event, after those emitted before it. -/
def emit (p : Packet) (s : State) : State :=
  { s with emitted := s.emitted ++ [p] }

/-- What reset loads: every field of R23 at its reset value (R160). Packets already emitted stay (R162). -/
def resetFields (s : State) : State :=
  { s with
    cfgValid := false
    mode := .normal8Bit
    profile := .rawScaled
    errIllegal := false
    errNocfg := false
    errRecfg := false }

/-- The host drives the reset input (R161). -/
def driveReset (level : Bool) (s : State) : State := { s with resetLine := level }

/-- The host reads `STATUS`: no field of SDF changes (R29); what it read is recorded on the host's side (log 5). -/
def recordStatus (s : State) : State := { s with statusReads := s.statusReads ++ [statusPort s] }

/-- The host's next event is taken off the ports. -/
def dropEvent (s : State) : State := { s with hostInput := s.hostInput.tail }

/-- The packets of `ps`, the first being the `k`-th emitted, that a transmitter dropping by `drop` sends (R48). -/
def wireFrom (drop : Nat → Bool) : Nat → List Packet → List Packet
  | _, [] => []
  | k, p :: ps => if drop k then wireFrom drop (k + 1) ps else p :: wireFrom drop (k + 1) ps

/-- What reaches the serial wire when the transmitter drops by `drop` (R48, R149). -/
def wire (drop : Nat → Bool) (s : State) : List Packet := wireFrom drop 0 s.emitted

/-- What reaches the wire under the open parameter `TX_DROP` (R48). -/
def wireOut (s : State) : List Packet := wire Config.txDrop s

end Sys2Proof.Machine
end

