-- ==== Sys2Proof/Machine/Configuration.lean ====
section
/-!
DEFINITION. The configuration commands: 40_configuration R80 and R81.
-/
namespace Sys2Proof.Machine

/-- `NOP` (R80): nothing. -/
def execNop (s : State) : Host.Outcome State Fault Refusal := .next s

/-- `CFG M, P` (R81): the first since reset configures; a later one raises `ERR_RECFG`, equal values or not. -/
def execCfg (m : Mode) (p : Profile) (s : State) : Host.Outcome State Fault Refusal :=
  if s.cfgValid then .next (raiseError .recfg s) else .next (configure m p s)

end Sys2Proof.Machine
end

