-- ==== Sys2Proof/Machine/Params.lean ====
section
/-!
DEFINITION. The fixed parameters of 00_scope R6.
-/
namespace Sys2Proof.Machine

/-- `AXES`: X, Y, Z, in packet order (R6). -/
def axes : List Axis := [.x, .y, .z]

/-- `SHIFT(MODE)`: 6 for Normal8Bit, 4 for HighRes12Bit (R6, R93; the number governs, not the mode's name, 90 C2). -/
def shiftAmount : Mode → Nat
  | .normal8Bit => 6
  | .highRes12Bit => 4

/-- `SENS_RAW`, the raw-scaled multiplier (R6). -/
def sensRaw : Int := 4

/-- `K_NUM`, numerator of `SENS_PHYS × G × MILLI_IN × MILLI_OUT` (R6). -/
def kNum : Int := 19612

/-- `K_DEN`, its denominator (R6). -/
def kDen : Int := 1000

/-- Bytes per axis, `W_RAW` or `W_PHYS` in bytes: set by the profile, not by the mode (R7). -/
def axisBytes : Profile → Nat
  | .rawScaled => 2
  | .physicalUnit => 4

/-- `PKT_LEN` (R6): 8 or 14. -/
def packetLength (p : Profile) : Nat := 2 + 3 * axisBytes p

/-- `HEADER` (R6). -/
def header : Byte := 0xA0

/-- `FOOTER` (R6). -/
def footer : Byte := 0xC0

/-- `DRDY_BIT`, the data-ready bit of the sensor status byte (R6). -/
def drdyBit : Nat := 3

end Sys2Proof.Machine
end

