-- ==== Sys2Proof/Machine/Operands.lean ====
section
/-!
DEFINITION. The decode datapath: the primitives of 00_scope R9 and the per-axis functions of 41_decoder. Every
intermediate value is an unbounded integer; only packet bytes are truncated (R10).
-/
namespace Sys2Proof.Machine

/-- `sext_16` (R9, R92): the two's-complement value. -/
def sext16 (v : Half) : Int :=
  if v.getLsbD 15 then (v.toNat : Int) - 65536 else (v.toNat : Int)

/-- `asr(x, n) = floor(x / 2^n)` (R9). -/
def asr (x : Int) (n : Nat) : Int := Int.fdiv x (2 ^ n)

/-- `le_bytes_N(x)` (R9) for `N = 8 n`: the bytes of `twos_N(x)`, least significant first. -/
def leBytes (n : Nat) (x : Int) : List Byte :=
  (List.range n).map fun k => (BitVec.ofInt (8 * n) x).extractLsb' (8 * k) 8

/-- `LSB_a = RAW[2a]` (R42, R90). -/
def lsbOf (raw : RawBurst) : Axis → Byte
  | .x => raw.xLsb
  | .y => raw.yLsb
  | .z => raw.zLsb

/-- `MSB_a = RAW[2a+1]` (R42, R90). -/
def msbOf (raw : RawBurst) : Axis → Byte
  | .x => raw.xMsb
  | .y => raw.yMsb
  | .z => raw.zMsb

/-- `U_a = LSB_a | (MSB_a << 8)` (R91). -/
def assemble16 (lsb msb : Byte) : Half := lsb.setWidth 16 ||| (msb.setWidth 16 <<< 8)

/-- `S_a = asr(sext_16(U_a), SHIFT(MODE))`, the shifted value (R94). -/
def shiftedValue (m : Mode) (lsb msb : Byte) : Int := asr (sext16 (assemble16 lsb msb)) (shiftAmount m)

/-- `V_a = S_a × SENS_RAW` (R96). -/
def rawScaledValue (s : Int) : Int := s * sensRaw

/-- `P_a = tdiv(S_a × 19612, 1000)`, milli-m/s², truncated toward zero and exact (R97, D11). -/
def physicalValue (s : Int) : Int := Int.tdiv (s * kNum) kDen

/-- The scaled value of the profile (R96, R97). -/
def scaledValue : Profile → Int → Int
  | .rawScaled, s => rawScaledValue s
  | .physicalUnit, s => physicalValue s

/-- `axis_payload` (R100). -/
def axisPayload (m : Mode) (p : Profile) (lsb msb : Byte) : List Byte :=
  leBytes (axisBytes p) (scaledValue p (shiftedValue m lsb msb))

/-- `frame` (R114): header, the three payloads in the order X, Y, Z, footer. -/
def frame (m : Mode) (p : Profile) (raw : RawBurst) : Packet :=
  [header] ++ axes.flatMap (fun a => axisPayload m p (lsbOf raw a) (msbOf raw a)) ++ [footer]

/-- The data-ready gate: bit 3 of the status byte and no other bit (R115, R116). -/
def dataReady (st : Byte) : Bool := st.getLsbD drdyBit

end Sys2Proof.Machine
end

