-- ==== Sys2Proof/Machine/Packetizer.lean ====
section
/-!
DEFINITION. The `SAMPLE` command: 42_packetizer R115 to R118.
-/
namespace Sys2Proof.Machine

/-- `SAMPLE ST, RAW` (R117): `ERR_NOCFG` before configuration whatever `ST` is; nothing when data is not ready (R115);
else one packet. -/
def execSample (st : Byte) (raw : RawBurst) (s : State) : Host.Outcome State Fault Refusal :=
  if !s.cfgValid then .next (raiseError .nocfg s)
  else if !dataReady st then .next s
  else .next (emit (frame s.mode s.profile raw) s)

end Sys2Proof.Machine
end

