-- ==== Sys2Proof/Machine/Dispatch.lean ====
section
/-!
DEFINITION. The meaning of each command, one arm per constructor.
-/
namespace Sys2Proof.Machine

def exec (i : Instr) (s : State) : Host.Outcome State Fault Refusal :=
  match i with
  | .nop => Sys2Proof.Machine.execNop s
  | .cfg m p => Sys2Proof.Machine.execCfg m p s
  | .sample st raw => Sys2Proof.Machine.execSample st raw s

end Sys2Proof.Machine
end

