-- ==== Sys2Proof/Machine/Port.lean ====
section
/-!
DEFINITION. SDF's ports: the command port with its legality check, the reset input and the status port (60_exceptions R130,
R132; 70_reset_and_hazards R160, R161; 10_state R28).
-/
namespace Sys2Proof.Machine

/-- An accepted word: a legal one executes, an illegal one raises `ERR_ILLEGAL` and does nothing else (R66, R67, R132). -/
def acceptWord (w : Word) (s : State) : Host.Outcome State Fault Refusal :=
  match decode w with
  | .ok i => exec i s
  | .error _ => .next (raiseError .illegal s)

/-- A word on the command port: it is not accepted while reset is asserted (R161). -/
def commandPort (w : Word) (s : State) : Host.Outcome State Fault Refusal :=
  if s.resetLine then .next s else acceptWord w s

/-- One event at the ports. -/
def portEvent (e : PortEvent) (s : State) : Host.Outcome State Fault Refusal :=
  match e with
  | .command w => commandPort w s
  | .assertReset => .next (resetFields (driveReset true s))
  | .releaseReset => .next (driveReset false s)
  | .readStatus => .next (recordStatus s)

/-- Take the host's next event; a host that presents nothing leaves the state as it is (R170). -/
def takeEvent (s : State) : Host.Outcome State Fault Refusal :=
  match s.hostInput with
  | [] => .next s
  | e :: _ => portEvent e (dropEvent s)

/-- The word presented next at a released reset input. -/
def presentWord (w : Word) (s : State) : State :=
  { s with resetLine := false, hostInput := .command w :: s.hostInput }

end Sys2Proof.Machine
end

