-- ==== Sys2Proof/Machine/Assembler.lean ====
section
/-!
DEFINITION. The assembler syntax of 30_encoding R70 and the pseudo-instructions of R71: what a line stands for, and the
reading of a line's characters. What R70 leaves open of the text (white space, letter case, range of a number) is log 12.
-/
namespace Sys2Proof.Machine

/-- One line of assembly (R70, R71). -/
inductive AsmLine where
  | nop
  | cfg (mode : Mode) (profile : Profile)
  | sample (st : Byte) (raw : RawBurst)
  /-- `.word <u64>`, legal or not -/
  | word (w : Word)
  /-- `SAMPLE.R`: the status byte has only the data-ready bit set -/
  | sampleR (raw : RawBurst)
  /-- `SKIP`: a cycle the host saw as not ready -/
  | skip
  /-- `SAMPLE.W`: a sample as three 16-bit register pairs -/
  | sampleW (st : Byte) (x y z : Half)
deriving DecidableEq, Repr

/-- The burst of three register pairs: low byte, then high byte, of each (R71 `SAMPLE.W`). -/
def rawOfPairs (x y z : Half) : RawBurst :=
  ⟨x.extractLsb' 0 8, x.extractLsb' 8 8, y.extractLsb' 0 8, y.extractLsb' 8 8, z.extractLsb' 0 8, z.extractLsb' 8 8⟩

/-- The burst of six zero bytes (R71 `SKIP`). -/
def zeroBurst : RawBurst := ⟨0, 0, 0, 0, 0, 0⟩

/-- The word `CFG` stands for (R70). -/
def asmCfgWord (m : Mode) (p : Profile) : Word :=
  0x1000000000000000 ||| ((BitVec.ofBool (profileBit p)).setWidth 64 <<< 1) ||| (BitVec.ofBool (modeBit m)).setWidth 64

/-- The word `SAMPLE` stands for (R70). -/
def asmSampleWord (st : Byte) (raw : RawBurst) : Word :=
  0x2000000000000000 ||| (st.setWidth 64 <<< 48) ||| (raw.zMsb.setWidth 64 <<< 40) ||| (raw.zLsb.setWidth 64 <<< 32) |||
    (raw.yMsb.setWidth 64 <<< 24) ||| (raw.yLsb.setWidth 64 <<< 16) ||| (raw.xMsb.setWidth 64 <<< 8) |||
    raw.xLsb.setWidth 64

/-- The word a line stands for (R70, R71). -/
def asmWord : AsmLine → Word
  | .nop => 0x0000000000000000
  | .cfg m p => asmCfgWord m p
  | .sample st raw => asmSampleWord st raw
  | .word w => w
  | .sampleR raw => asmSampleWord 0x08 raw
  | .skip => asmSampleWord 0x00 zeroBurst
  | .sampleW st x y z => asmSampleWord st (rawOfPairs x y z)

/-- A space or a tab. -/
def isBlank (c : Char) : Bool := c == ' ' || c == '\t'

/-- The characters before a comment: `;` to end of line (R70). -/
def withoutComment (cs : List Char) : List Char := cs.takeWhile (· != ';')

/-- The characters without blanks at either end. -/
def trimBlanks (cs : List Char) : List Char := ((cs.dropWhile isBlank).reverse.dropWhile isBlank).reverse

/-- The pieces between commas, at least one. -/
def commaPieces : List Char → List (List Char)
  | [] => [[]]
  | c :: cs =>
    if c == ',' then [] :: commaPieces cs
    else
      match commaPieces cs with
      | [] => [[c]]
      | p :: ps => (c :: p) :: ps

/-- The value of a digit, below 16. -/
def digitValue (c : Char) : Option Nat :=
  let n := c.toNat
  if 48 ≤ n ∧ n ≤ 57 then some (n - 48)
  else if 65 ≤ n ∧ n ≤ 70 then some (n - 55)
  else if 97 ≤ n ∧ n ≤ 102 then some (n - 87)
  else none

/-- Digits in a base, most significant first, continuing the number read so far. -/
def readDigits (base : Nat) : Nat → List Char → Option Nat
  | acc, [] => some acc
  | acc, c :: cs =>
    match digitValue c with
    | none => none
    | some d => if d < base then readDigits base (acc * base + d) cs else none

/-- A number in hex (`0x`) or decimal (R70), at least one digit. -/
def readNumber : List Char → Option Nat
  | '0' :: 'x' :: c :: cs => readDigits 16 0 (c :: cs)
  | '0' :: 'x' :: [] => none
  | c :: cs => readDigits 10 0 (c :: cs)
  | [] => none

/-- A number that fits in `n` bits. -/
def readBits (n : Nat) (cs : List Char) : Option (BitVec n) :=
  match readNumber cs with
  | none => none
  | some v => if v < 2 ^ n then some (BitVec.ofNat n v) else none

/-- `<mode>`: `N8` or `HR12` (R70). -/
def readMode (cs : List Char) : Option Mode :=
  if cs = ['N', '8'] then some .normal8Bit
  else if cs = ['H', 'R', '1', '2'] then some .highRes12Bit
  else none

/-- `<profile>`: `RAW` or `PHYS` (R70). -/
def readProfile (cs : List Char) : Option Profile :=
  if cs = ['R', 'A', 'W'] then some .rawScaled
  else if cs = ['P', 'H', 'Y', 'S'] then some .physicalUnit
  else none

/-- Six byte operands in burst order (R70). -/
def readBurst : List (List Char) → Option RawBurst
  | [b0, b1, b2, b3, b4, b5] =>
    match readBits 8 b0, readBits 8 b1, readBits 8 b2, readBits 8 b3, readBits 8 b4, readBits 8 b5 with
    | some v0, some v1, some v2, some v3, some v4, some v5 => some ⟨v0, v1, v2, v3, v4, v5⟩
    | _, _, _, _, _, _ => none
  | _ => none

/-- The operands of `CFG`. -/
def readCfg : List (List Char) → Option AsmLine
  | [m, p] =>
    match readMode m, readProfile p with
    | some mode, some profile => some (.cfg mode profile)
    | _, _ => none
  | _ => none

/-- The operands of `SAMPLE`. -/
def readSample : List (List Char) → Option AsmLine
  | st :: bs =>
    match readBits 8 st, readBurst bs with
    | some v, some raw => some (.sample v raw)
    | _, _ => none
  | [] => none

/-- The operands of `SAMPLE.W`. -/
def readSampleW : List (List Char) → Option AsmLine
  | [st, x, y, z] =>
    match readBits 8 st, readBits 16 x, readBits 16 y, readBits 16 z with
    | some v, some wx, some wy, some wz => some (.sampleW v wx wy wz)
    | _, _, _, _ => none
  | _ => none

/-- The operand of `.word`. -/
def readWordLine : List (List Char) → Option AsmLine
  | [w] => (readBits 64 w).map .word
  | _ => none

/-- A line's mnemonic and the text after it. -/
def splitMnemonic (cs : List Char) : List Char × List Char :=
  (cs.takeWhile (fun c => !isBlank c), trimBlanks (cs.dropWhile (fun c => !isBlank c)))

/-- A line without its comment and outer blanks; none when it is no line of R70 or R71. -/
def readCommand (cs : List Char) : Option AsmLine :=
  let mnem := (splitMnemonic cs).1
  let rest := (splitMnemonic cs).2
  let operands := (commaPieces rest).map trimBlanks
  if mnem = ['N', 'O', 'P'] then (if rest = [] then some .nop else none)
  else if mnem = ['S', 'K', 'I', 'P'] then (if rest = [] then some .skip else none)
  else if mnem = ['C', 'F', 'G'] then readCfg operands
  else if mnem = ['S', 'A', 'M', 'P', 'L', 'E'] then readSample operands
  else if mnem = ['S', 'A', 'M', 'P', 'L', 'E', '.', 'R'] then (readBurst operands).map .sampleR
  else if mnem = ['S', 'A', 'M', 'P', 'L', 'E', '.', 'W'] then readSampleW operands
  else if mnem = ['.', 'w', 'o', 'r', 'd'] then readWordLine operands
  else none

/-- The words of a program's lines, one command a line; a line of blanks or of comment alone gives none (R70). -/
def assemble : List (List Char) → Option (List Word)
  | [] => some []
  | l :: ls =>
    match assemble ls with
    | none => none
    | some ws =>
      let body := trimBlanks (withoutComment l)
      if body = [] then some ws
      else
        match readCommand body with
        | none => none
        | some line => some (asmWord line :: ws)

end Sys2Proof.Machine
end

