-- ==== Sys2Proof/Machine/HostLoop.lean ====
section
/-!
DEFINITION. The host contract of 60_exceptions R140 to R148 as an agent of its own: the Sampling Scheduler and the
Acquisition Loop, which decide the command words SDF is given. It is surrounding software, outside SDF (00_scope R5): it
stands beside `State`, not in it (log 11).
-/
namespace Sys2Proof.Machine

/-- Where the Acquisition Loop is (R142); `Decode`, `Frame` and `Transmit` are the one `SAMPLE` command. -/
inductive LoopPhase where
  /-- `WaitSignal` -/
  | waitSignal
  /-- `CheckStatus` -/
  | checkStatus
  /-- `BurstRead`, the status byte read before it -/
  | burstRead (st : Byte)
  /-- `Decode`, `Frame`, `Transmit`: the `SAMPLE` word is to be presented -/
  | presentSample (st : Byte) (raw : RawBurst)
deriving DecidableEq, Repr

/-- The host's state: SampleReadySignal (R146) and the loop's phase. -/
structure LoopState where
  signal : Bool
  phase : LoopPhase
deriving DecidableEq, Repr

/-- What the bus answers when the loop asks (R144), and what a host does with a cycle that is not ready (R143). -/
structure BusReading where
  /-- the status byte, or none when the read failed -/
  status : Option Byte
  /-- the six axis bytes, or none when the burst failed -/
  burst : Option RawBurst
  /-- none: a cycle that is not ready presents nothing; otherwise the bytes its `SAMPLE` carries -/
  skipped : Option RawBurst
deriving DecidableEq, Repr

/-- What happens on the host's side. -/
inductive LoopEvent where
  /-- the timer expires and its handler runs (R141) -/
  | timerExpiry
  /-- the foreground loop takes one turn -/
  | turn (bus : BusReading)
deriving DecidableEq, Repr

/-- The `SAMPLE` word of a status byte and a burst, presented unchanged (R143). -/
def presentedSample (st : Byte) (raw : RawBurst) : PortEvent := .command (encode (.sample st raw))

/-- The cycle is resolved, consumed or aborted: only now is the signal cleared (R146, R147). -/
def loopResolved : LoopState := ⟨false, .waitSignal⟩

/-- One turn of the loop from a phase (R142, R144, R147). -/
def loopTurn (h : LoopState) (bus : BusReading) : LoopState × List PortEvent :=
  match h.phase with
  | .waitSignal => if h.signal then ({ h with phase := .checkStatus }, []) else (h, [])
  | .checkStatus =>
    match bus.status with
    | none => (loopResolved, [])
    | some st =>
      if dataReady st then ({ h with phase := .burstRead st }, [])
      else (loopResolved, (bus.skipped.map (presentedSample st)).toList)
  | .burstRead st =>
    match bus.burst with
    | none => (loopResolved, [])
    | some raw => ({ h with phase := .presentSample st raw }, [])
  | .presentSample st raw => (loopResolved, [presentedSample st raw])

/-- One host event: an expiry sets the signal and does nothing else, whatever the loop is doing (R141, R168). -/
def loopStep (h : LoopState) (e : LoopEvent) : LoopState × List PortEvent :=
  match e with
  | .timerExpiry => ({ h with signal := true }, [])
  | .turn bus => loopTurn h bus

/-- The host after a list of its events, and the port events it made on the way, in order. -/
def loopRun (h : LoopState) : List LoopEvent → LoopState × List PortEvent
  | [] => (h, [])
  | e :: es => ((loopRun (loopStep h e).1 es).1, (loopStep h e).2 ++ (loopRun (loopStep h e).1 es).2)

end Sys2Proof.Machine
end

