-- ==== Sys2Proof/Safety.lean ====
section
/-!
DEFINITION. What claims are stated in: the observation of a run (10_state R34), the machine's invariant, and what a host
that keeps its one ordering duty does (70_reset_and_hazards R163, R166).
-/
namespace Sys2Proof.Machine

/-- What a run is observed as (R34): the six fields of R23 and the packets, in emission order. -/
structure Observation where
  cfgValid : Bool
  mode : Mode
  profile : Profile
  errIllegal : Bool
  errNocfg : Bool
  errRecfg : Bool
  packets : List Packet
deriving DecidableEq, Repr

/-- The observation of a state (R34). -/
def observe (s : State) : Observation :=
  ⟨s.cfgValid, s.mode, s.profile, s.errIllegal, s.errNocfg, s.errRecfg, s.emitted⟩

/-- A packet with the header, the footer and one of the two lengths (R112, R113). -/
def wellFramed (pk : Packet) : Prop :=
  pk.head? = some 0xA0 ∧ pk.getLast? = some 0xC0 ∧ (pk.length = 8 ∨ pk.length = 14)

/-- The machine's invariant: `MODE` and `PROFILE` are 0 until a `CFG` (R23); while reset is asserted the fields stay at their
reset values (R160, R161); every packet on the output port is whole (R47, R112). -/
def Inv (s : State) : Prop :=
  (s.cfgValid = false → s.mode = .normal8Bit ∧ s.profile = .rawScaled) ∧
  (s.resetLine = true →
    s.cfgValid = false ∧ s.errIllegal = false ∧ s.errNocfg = false ∧ s.errRecfg = false) ∧
  ∀ pk ∈ s.emitted, wellFramed pk

/-- No error flag is set, the premise of the claims of 93_implementation_defined I11. -/
def noError (s : State) : Bool := !s.errIllegal && !s.errNocfg && !s.errRecfg

/-- The host keeps its duty over a list of port events, from a given `CFG_VALID` and reset level: only legal words, and
between two resets one `CFG`, before the first `SAMPLE` (R163, R166). A word presented while reset is asserted is not
accepted (R161) and breaks nothing. -/
def dutyKept : Bool → Bool → List PortEvent → Bool
  | _, _, [] => true
  | configured, inReset, .command w :: es =>
    if inReset then dutyKept configured inReset es
    else
      match decode w with
      | .ok .nop => dutyKept configured inReset es
      | .ok (.cfg _ _) => !configured && dutyKept true inReset es
      | .ok (.sample _ _) => configured && dutyKept configured inReset es
      | .error _ => false
  | _, _, .assertReset :: es => dutyKept false true es
  | configured, _, .releaseReset :: es => dutyKept configured false es
  | configured, inReset, .readStatus :: es => dutyKept configured inReset es

/-- A safe state: no error flag is set, and what the host is about to do keeps its duty. -/
def safeState (s : State) : Bool := noError s && dutyKept s.cfgValid s.resetLine s.hostInput

end Sys2Proof.Machine
end

