-- ==== Sys2Proof/Certificates/Slice0/Obligations.lean ====
section
/-!
DEFINITION. The statements for the provers. Each docstring cites the rule of spec/ it formalises; where a rule is marked by
the spec as derived, or a clause rests on a field of the model's own, the docstring says so.
-/

open Sys2Proof Sys2Proof.Machine

/-! ## Encoding -/

/-- Decode and encode agree: no bit of an encoding is dropped (30_encoding, R60 to R64). -/
def Obligations.DecodeOfEncodeIsTheCommand : Prop :=
  ∀ i : Instr, decode (encode i) = .ok i

/-- Every legal word is the encoding of the command it decodes to: one meaning a word, no bit ignored (30_encoding, R60 to
R68). -/
def Obligations.EncodeOfDecodeIsTheWord : Prop :=
  ∀ (w : Word) (i : Instr), decode w = .ok i → encode i = w

/-- R66, R67: a reserved opcode, whatever the other bits, and a 1 in any bit the layout reserves are illegal; executing
such a word sets `ERR_ILLEGAL`, changes nothing else and emits nothing. -/
def Obligations.ReservedEncodingsRaiseIllegal : Prop :=
  ∀ (w : Word) (s : State),
    (3 ≤ (w.extractLsb' 60 4).toNat ∨
      ((w.extractLsb' 60 4).toNat ≤ 2 ∧ w.extractLsb' 56 4 ≠ 0) ∨
      (w.extractLsb' 60 4 = 0 ∧ w.extractLsb' 0 56 ≠ 0) ∨
      (w.extractLsb' 60 4 = 1 ∧ w.extractLsb' 2 54 ≠ 0)) →
    (∃ r, decode w = .error r) ∧ acceptWord w s = .next { s with errIllegal := true }

/-- R62, R63, R64: the only `NOP` word; the legal `CFG` words by mask and match, their two bits, and the four of them; the
legal `SAMPLE` words by mask and match, their fields, and that every field value occurs. -/
def Obligations.LegalWordsDecodeByLayout : Prop :=
  (∀ w : Word, decode w = .ok .nop ↔ w = 0x0000000000000000) ∧
  (∀ w : Word, w &&& 0xFFFFFFFFFFFFFFFC = 0x1000000000000000 ↔ ∃ m p, decode w = .ok (.cfg m p)) ∧
  (∀ (w : Word) (m : Mode) (p : Profile), decode w = .ok (.cfg m p) →
    (w.getLsbD 0 = true ↔ m = .highRes12Bit) ∧ (w.getLsbD 1 = true ↔ p = .physicalUnit)) ∧
  (decode 0x1000000000000000 = .ok (.cfg .normal8Bit .rawScaled) ∧
    decode 0x1000000000000001 = .ok (.cfg .highRes12Bit .rawScaled) ∧
    decode 0x1000000000000002 = .ok (.cfg .normal8Bit .physicalUnit) ∧
    decode 0x1000000000000003 = .ok (.cfg .highRes12Bit .physicalUnit)) ∧
  (∀ w : Word, w &&& 0xFF00000000000000 = 0x2000000000000000 ↔ ∃ st raw, decode w = .ok (.sample st raw)) ∧
  (∀ (w : Word) (st : Byte) (raw : RawBurst), decode w = .ok (.sample st raw) →
    st = w.extractLsb' 48 8 ∧ raw.zMsb = w.extractLsb' 40 8 ∧ raw.zLsb = w.extractLsb' 32 8 ∧
    raw.yMsb = w.extractLsb' 24 8 ∧ raw.yLsb = w.extractLsb' 16 8 ∧ raw.xMsb = w.extractLsb' 8 8 ∧
    raw.xLsb = w.extractLsb' 0 8) ∧
  (∀ (st : Byte) (raw : RawBurst), ∃ w : Word, decode w = .ok (.sample st raw))

/-- No word matches two rows of the opcode table; a word decodes exactly when it matches a row, and exactly when none of
its fields is reserved (30_encoding section 4; the spec marks R69 as derived). -/
def Obligations.DecodingIsTotalAndUnambiguous : Prop :=
  ∀ w : Word,
    (∀ r₁ ∈ opcodeTable, ∀ r₂ ∈ opcodeTable, rowMatches r₁ w = true → rowMatches r₂ w = true → r₁ = r₂) ∧
    ((∃ r ∈ opcodeTable, rowMatches r w = true) ↔ ∃ i, decode w = .ok i) ∧
    (wordLegal w = true ↔ ∃ i, decode w = .ok i)

/-- Words written out bit by bit in 95_test_vectors section 2.1 decode as that table says. -/
def Obligations.TabulatedWordsDecode : Prop :=
  decode 0x0000000000000000 = .ok .nop ∧
  decode 0x1000000000000003 = .ok (.cfg .highRes12Bit .physicalUnit) ∧
  decode 0x2008300020001000 = .ok (.sample 0x08 ⟨0x00, 0x10, 0x00, 0x20, 0x00, 0x30⟩) ∧
  decode 0x1000000000000004 = .error .reservedBitSet ∧
  decode 0x3000000000000000 = .error .reservedOpcode

/-- The words of assembler lines and of the pseudo-instructions decode to the commands they stand for (30_encoding section
5, R70, R71). -/
def Obligations.AssembledWordsDecode : Prop :=
  decode (asmWord .nop) = .ok .nop ∧
  (∀ m p, decode (asmWord (.cfg m p)) = .ok (.cfg m p)) ∧
  (∀ st raw, decode (asmWord (.sample st raw)) = .ok (.sample st raw)) ∧
  (∀ raw, decode (asmWord (.sampleR raw)) = .ok (.sample 0x08 raw)) ∧
  decode (asmWord .skip) = .ok (.sample 0x00 ⟨0, 0, 0, 0, 0, 0⟩) ∧
  (∀ st (x y z : Half), decode (asmWord (.sampleW st x y z)) =
    .ok (.sample st ⟨x.extractLsb' 0 8, x.extractLsb' 8 8, y.extractLsb' 0 8, y.extractLsb' 8 8,
      z.extractLsb' 0 8, z.extractLsb' 8 8⟩)) ∧
  (∀ w, asmWord (.word w) = w)

/-! ## The decode datapath -/

/-- R91, R92: `U = {MSB, LSB}`, every 16-bit value occurs, and `R` is its two's-complement value, with the rules'
examples. -/
def Obligations.AssemblyAndSign : Prop :=
  (∀ lsb msb : Byte, (assemble16 lsb msb).toNat = 256 * msb.toNat + lsb.toNat) ∧
  (∀ u : Half, ∃ lsb msb : Byte, assemble16 lsb msb = u) ∧
  (∀ u : Half, -32768 ≤ sext16 u ∧ sext16 u ≤ 32767 ∧ sext16 u % 65536 = (u.toNat : Int)) ∧
  assemble16 0xC0 0xFF = 0xFFC0 ∧ sext16 0xFFC0 = -64 ∧ sext16 0x8000 = -32768

/-- R94: `S = floor(R / 2^SHIFT)`; its corner cases; the low `SHIFT` bits never influence any output; its example. -/
def Obligations.ShiftedValueRoundsDown : Prop :=
  (∀ (m : Mode) (lsb msb : Byte),
    shiftedValue m lsb msb * 2 ^ shiftAmount m ≤ sext16 (assemble16 lsb msb) ∧
    sext16 (assemble16 lsb msb) < (shiftedValue m lsb msb + 1) * 2 ^ shiftAmount m ∧
    (sext16 (assemble16 lsb msb) < 0 → -(2 ^ shiftAmount m) ≤ sext16 (assemble16 lsb msb) →
      shiftedValue m lsb msb = -1) ∧
    (0 ≤ sext16 (assemble16 lsb msb) → sext16 (assemble16 lsb msb) ≤ 2 ^ shiftAmount m - 1 →
      shiftedValue m lsb msb = 0)) ∧
  (∀ (m : Mode) (p : Profile) (lsb lsb' msb : Byte), lsb >>> shiftAmount m = lsb' >>> shiftAmount m →
    shiftedValue m lsb msb = shiftedValue m lsb' msb ∧ axisPayload m p lsb msb = axisPayload m p lsb' msb) ∧
  shiftAmount .normal8Bit = 6 ∧ shiftAmount .highRes12Bit = 4 ∧ shiftedValue .highRes12Bit 0x00 0x10 = 256

/-- R43: payload bytes least significant first for both widths, any integer; the axes in the order X, Y, Z between the
header and the footer. -/
def Obligations.PayloadIsLittleEndian : Prop :=
  (∀ v : Int, leBytes 4 v =
    [BitVec.ofInt 8 v, BitVec.ofInt 8 (v / 2 ^ 8), BitVec.ofInt 8 (v / 2 ^ 16), BitVec.ofInt 8 (v / 2 ^ 24)]) ∧
  (∀ v : Int, leBytes 2 v = [BitVec.ofInt 8 v, BitVec.ofInt 8 (v / 2 ^ 8)]) ∧
  (∀ (m : Mode) (p : Profile) (raw : RawBurst), frame m p raw =
    [0xA0] ++ axisPayload m p raw.xLsb raw.xMsb ++ axisPayload m p raw.yLsb raw.yMsb ++
      axisPayload m p raw.zLsb raw.zMsb ++ [0xC0])

/-- R96: the raw-scaled value is `4 S`, kept as a 16-bit signed integer without loss, and is the payload's two bytes, low
byte first; the rule's corner cases. -/
def Obligations.RawScaledPayload : Prop :=
  (∀ (m : Mode) (lsb msb : Byte),
    (BitVec.ofInt 16 (4 * shiftedValue m lsb msb)).toInt = 4 * shiftedValue m lsb msb ∧
    axisPayload m .rawScaled lsb msb =
      [BitVec.ofInt 8 (4 * shiftedValue m lsb msb), BitVec.ofInt 8 (4 * shiftedValue m lsb msb / 256)]) ∧
  leBytes 2 (rawScaledValue (-1)) = [0xFC, 0xFF] ∧ leBytes 2 (rawScaledValue (-512)) = [0x00, 0xF8] ∧
  leBytes 2 (rawScaledValue 0) = [0x00, 0x00] ∧ axisPayload .normal8Bit .rawScaled 0xFF 0x7F = [0xFC, 0x07]

/-- R97: the physical value is `S × 19.612` truncated toward zero, exactly; it is exact at the multiples of 250 and at no
other; it is the payload's four bytes, low byte first; the rule's examples. -/
def Obligations.PhysicalPayload : Prop :=
  (∀ s : Int, 0 ≤ s → physicalValue s = s * 19612 / 1000) ∧
  (∀ s : Int, s < 0 → physicalValue s = -(-s * 19612 / 1000)) ∧
  (∀ s : Int, physicalValue s * 1000 = s * 19612 ↔ s % 250 = 0) ∧
  (∀ (m : Mode) (lsb msb : Byte), axisPayload m .physicalUnit lsb msb =
    [BitVec.ofInt 8 (physicalValue (shiftedValue m lsb msb)),
      BitVec.ofInt 8 (physicalValue (shiftedValue m lsb msb) / 2 ^ 8),
      BitVec.ofInt 8 (physicalValue (shiftedValue m lsb msb) / 2 ^ 16),
      BitVec.ofInt 8 (physicalValue (shiftedValue m lsb msb) / 2 ^ 24)]) ∧
  physicalValue 1 = 19 ∧ physicalValue (-1) = -19 ∧ physicalValue 250 = 4903 ∧ physicalValue 750 = 14709 ∧
  physicalValue (-1500) = -29418 ∧ physicalValue 1683 = 33006 ∧ physicalValue 256 = 5020

/-- The source's formula of 41_decoder section 3 in rational arithmetic: `S × (2 × 9.806 × 0.001)` in m/s², times 1000,
truncated toward zero. The constant 19612/1000 is the spec's own derivation (R6), so this is derived. -/
def Obligations.PhysicalValueIsTheTruncatedFormula : Prop :=
  ∀ s : Int, physicalValue s =
    if 0 ≤ s then ⌊(s : ℚ) * (2 * (9806 / 1000) * (1 / 1000)) * 1000⌋
    else ⌈(s : ℚ) * (2 * (9806 / 1000) * (1 / 1000)) * 1000⌉

/-- The ranges of `S`, `V` and `P` in both modes, and the constant upper bytes of a physical payload (41_decoder sections 2
and 3; the spec marks these ranges as derived). -/
def Obligations.DatapathRanges : Prop :=
  (∀ lsb msb : Byte,
    -512 ≤ shiftedValue .normal8Bit lsb msb ∧ shiftedValue .normal8Bit lsb msb ≤ 511 ∧
    -2048 ≤ shiftedValue .highRes12Bit lsb msb ∧ shiftedValue .highRes12Bit lsb msb ≤ 2047 ∧
    -2048 ≤ rawScaledValue (shiftedValue .normal8Bit lsb msb) ∧
    rawScaledValue (shiftedValue .normal8Bit lsb msb) ≤ 2044 ∧
    -8192 ≤ rawScaledValue (shiftedValue .highRes12Bit lsb msb) ∧
    rawScaledValue (shiftedValue .highRes12Bit lsb msb) ≤ 8188 ∧
    -10041 ≤ physicalValue (shiftedValue .normal8Bit lsb msb) ∧
    physicalValue (shiftedValue .normal8Bit lsb msb) ≤ 10021 ∧
    -40165 ≤ physicalValue (shiftedValue .highRes12Bit lsb msb) ∧
    physicalValue (shiftedValue .highRes12Bit lsb msb) ≤ 40145) ∧
  (∀ (m : Mode) (lsb msb : Byte), rawScaledValue (shiftedValue m lsb msb) % 4 = 0 ∧
    ((axisPayload m .physicalUnit lsb msb).drop 2 =
      if physicalValue (shiftedValue m lsb msb) < 0 then [0xFF, 0xFF] else [0x00, 0x00]))

/-- The datapath on unbounded integers equals one on machine words: in 16 bits an arithmetic right shift and a left shift by
2; in 32 bits a sign extension, an arithmetic right shift, a product and a signed division (41_decoder, R10, R90 to R100). -/
def Obligations.DatapathEqualsMachineWords : Prop :=
  ∀ (m : Mode) (lsb msb : Byte),
    axisPayload m .rawScaled lsb msb =
      [(((msb ++ lsb : BitVec 16).sshiftRight (shiftAmount m)) <<< 2).extractLsb' 0 8,
        (((msb ++ lsb : BitVec 16).sshiftRight (shiftAmount m)) <<< 2).extractLsb' 8 8] ∧
    axisPayload m .physicalUnit lsb msb =
      (List.range 4).map fun k =>
        (((((msb ++ lsb : BitVec 16).signExtend 32).sshiftRight (shiftAmount m)) * 19612#32).sdiv 1000#32).extractLsb'
          (8 * k) 8

/-- Lane `a` of a packet reads only its own pair: the packet's three payload fields are the three axes' payloads, at fixed
places (41_decoder section 4; the spec marks R99 as derived). -/
def Obligations.LanesAreIndependent : Prop :=
  ∀ (m : Mode) (p : Profile) (raw : RawBurst),
    ((frame m p raw).drop 1).take (axisBytes p) = axisPayload m p raw.xLsb raw.xMsb ∧
    ((frame m p raw).drop (1 + axisBytes p)).take (axisBytes p) = axisPayload m p raw.yLsb raw.yMsb ∧
    ((frame m p raw).drop (1 + 2 * axisBytes p)).take (axisBytes p) = axisPayload m p raw.zLsb raw.zMsb

/-! ## Packets -/

/-- R110, R111: the two packet layouts, byte by byte. -/
def Obligations.PacketLayouts : Prop :=
  ∀ (m : Mode) (raw : RawBurst) (v : Axis → BitVec 16) (q : Axis → BitVec 32),
    (∀ a, v a = BitVec.ofInt 16 (rawScaledValue (shiftedValue m (lsbOf raw a) (msbOf raw a)))) →
    (∀ a, q a = BitVec.ofInt 32 (physicalValue (shiftedValue m (lsbOf raw a) (msbOf raw a)))) →
    frame m .rawScaled raw =
      [0xA0, (v .x).extractLsb' 0 8, (v .x).extractLsb' 8 8, (v .y).extractLsb' 0 8, (v .y).extractLsb' 8 8,
        (v .z).extractLsb' 0 8, (v .z).extractLsb' 8 8, 0xC0] ∧
    frame m .physicalUnit raw =
      [0xA0, (q .x).extractLsb' 0 8, (q .x).extractLsb' 8 8, (q .x).extractLsb' 16 8, (q .x).extractLsb' 24 8,
        (q .y).extractLsb' 0 8, (q .y).extractLsb' 8 8, (q .y).extractLsb' 16 8, (q .y).extractLsb' 24 8,
        (q .z).extractLsb' 0 8, (q .z).extractLsb' 8 8, (q .z).extractLsb' 16 8, (q .z).extractLsb' 24 8, 0xC0]

/-- R113: 8 bytes in the raw-scaled profile, 14 in the physical-unit profile, for every input and either mode. -/
def Obligations.PacketLengthByProfile : Prop :=
  ∀ (m : Mode) (raw : RawBurst),
    (frame m .rawScaled raw).length = 8 ∧ (frame m .physicalUnit raw).length = 14

/-! ## The commands -/

/-- R80: `NOP` answers the same state; its word is the all-zero word; any other word with `OPC = 0` raises `ERR_ILLEGAL`. -/
def Obligations.NopCompletesAndDoesNothing : Prop :=
  (∀ s : State, exec .nop s = .next s) ∧
  (∀ s : State, acceptWord 0x0000000000000000 s = .next s) ∧
  (∀ (w : Word) (s : State), w.extractLsb' 60 4 = 0 → w.extractLsb' 0 60 ≠ 0 →
    acceptWord w s = .next { s with errIllegal := true })

/-- R81: the first `CFG` since reset writes the three configuration fields, in all four forms and whatever the error flags;
a later one sets `ERR_RECFG` and writes nothing else, equal values included; its words and its malformed words; its
example. -/
def Obligations.CfgConfiguresOncePerReset : Prop :=
  (∀ (m : Mode) (p : Profile) (s : State), s.cfgValid = false →
    exec (.cfg m p) s = .next { s with mode := m, profile := p, cfgValid := true }) ∧
  (∀ (m : Mode) (p : Profile) (s : State), s.cfgValid = true →
    exec (.cfg m p) s = .next { s with errRecfg := true }) ∧
  (∀ w : Word, w.extractLsb' 60 4 = 1 → w.extractLsb' 2 58 = 0 →
    decode w = .ok (.cfg (if w.getLsbD 0 then .highRes12Bit else .normal8Bit)
      (if w.getLsbD 1 then .physicalUnit else .rawScaled))) ∧
  (∀ (w : Word) (s : State), w.extractLsb' 60 4 = 1 → w.extractLsb' 2 58 ≠ 0 →
    acceptWord w s = .next { s with errIllegal := true }) ∧
  (∃ s₁ s₂ : State, acceptWord 0x1000000000000003 State.reset = .next s₁ ∧ statusPort s₁ = 0x07 ∧
    acceptWord 0x1000000000000000 s₁ = .next s₂ ∧ statusPort s₂ = 0x47)

/-- R117: `SAMPLE` before configuration sets `ERR_NOCFG` whatever `ST` is; configured and not ready it answers the same
state; configured and ready it emits one packet, of 8 or 14 bytes, and writes nothing else; its words and its malformed
words; its example. -/
def Obligations.SampleGatesDecodesAndEmits : Prop :=
  (∀ (st : Byte) (raw : RawBurst) (s : State), s.cfgValid = false →
    exec (.sample st raw) s = .next { s with errNocfg := true }) ∧
  (∀ (st : Byte) (raw : RawBurst) (s : State), s.cfgValid = true → st.getLsbD 3 = false →
    exec (.sample st raw) s = .next s) ∧
  (∀ (st : Byte) (raw : RawBurst) (s : State), s.cfgValid = true → st.getLsbD 3 = true →
    exec (.sample st raw) s = .next { s with emitted := s.emitted ++ [frame s.mode s.profile raw] } ∧
    (frame s.mode s.profile raw).length = (if s.profile = .rawScaled then 8 else 14)) ∧
  (∀ w : Word, w.extractLsb' 60 4 = 2 → w.extractLsb' 56 4 = 0 →
    decode w = .ok (.sample (w.extractLsb' 48 8) ⟨w.extractLsb' 0 8, w.extractLsb' 8 8, w.extractLsb' 16 8,
      w.extractLsb' 24 8, w.extractLsb' 32 8, w.extractLsb' 40 8⟩)) ∧
  (∀ (w : Word) (s : State), w.extractLsb' 60 4 = 2 → w.extractLsb' 56 4 ≠ 0 →
    acceptWord w s = .next { s with errIllegal := true }) ∧
  (∃ s₁ s₂ : State, exec (.cfg .highRes12Bit .physicalUnit) State.reset = .next s₁ ∧
    acceptWord 0x2008300020001000 s₁ = .next s₂ ∧
    s₂.emitted = [[0xA0, 0x9C, 0x13, 0x00, 0x00, 0x39, 0x27, 0x00, 0x00, 0xD6, 0x3A, 0x00, 0x00, 0xC0]])

/-- R115, R134: only a set bit 3 lets a `SAMPLE` produce a packet; with bit 3 clear a configured SDF keeps its whole state
(no flag, no packet), and the burst is not examined. -/
def Obligations.DataReadyGate : Prop :=
  (∀ (st : Byte) (raw : RawBurst) (s t : State), exec (.sample st raw) s = .next t → t.emitted ≠ s.emitted →
    st.getLsbD 3 = true) ∧
  (∀ (st : Byte) (raw : RawBurst) (s : State), s.cfgValid = true → st.getLsbD 3 = false →
    exec (.sample st raw) s = .next s) ∧
  (∀ (st : Byte) (raw raw' : RawBurst) (s : State), st.getLsbD 3 = false →
    exec (.sample st raw) s = exec (.sample st raw') s)

/-- R116: two status bytes that agree in bit 3 are the same to SDF. -/
def Obligations.OtherStatusBitsAreIgnored : Prop :=
  ∀ (st st' : Byte) (raw : RawBurst) (s : State), st.getLsbD 3 = st'.getLsbD 3 →
    exec (.sample st raw) s = exec (.sample st' raw) s

/-! ## Errors and status -/

/-- R131: raising an error sets its flag, whatever it was, and writes nothing else. -/
def Obligations.RaisingSetsOneFlagOnly : Prop :=
  ∀ (f : ErrorFlag) (s : State),
    errorFlag (raiseError f s) f = true ∧
    (∀ g, g ≠ f → errorFlag (raiseError f s) g = errorFlag s g) ∧
    (raiseError f s).cfgValid = s.cfgValid ∧ (raiseError f s).mode = s.mode ∧
    (raiseError f s).profile = s.profile ∧ (raiseError f s).emitted = s.emitted ∧
    (raiseError f s).resetLine = s.resetLine ∧ (raiseError f s).hostInput = s.hostInput ∧
    (raiseError f s).statusReads = s.statusReads

/-- R130: the three codes are the flags' `STATUS` bits; from clear flags, each is set by its own cause and by no other; a
flag is the whole record of its error. -/
def Obligations.ErrorConditionsAndCauses : Prop :=
  (∀ (s : State) (f : ErrorFlag), (statusPort s).getLsbD (errorCode f) = errorFlag s f) ∧
  (errorCode .illegal = 4 ∧ errorCode .nocfg = 5 ∧ errorCode .recfg = 6) ∧
  (∀ (w : Word) (s t : State), acceptWord w s = .next t → noError s = true →
    (t.errIllegal = true ↔ wordLegal w = false) ∧
    (t.errNocfg = true ↔ s.cfgValid = false ∧ ∃ st raw, decode w = .ok (.sample st raw)) ∧
    (t.errRecfg = true ↔ s.cfgValid = true ∧ ∃ m p, decode w = .ok (.cfg m p)) ∧
    (noError t = false → { t with errIllegal := false, errNocfg := false, errRecfg := false } = s))

/-- R132: legality is checked first, then configuration, then the gate; one command raises at most one error. -/
def Obligations.OneErrorInOrder : Prop :=
  ∀ (w : Word) (s : State),
    (wordLegal w = false → acceptWord w s = .next { s with errIllegal := true }) ∧
    (∀ m p, decode w = .ok (.cfg m p) → s.cfgValid = true → acceptWord w s = .next { s with errRecfg := true }) ∧
    (∀ st raw, decode w = .ok (.sample st raw) → s.cfgValid = false →
      acceptWord w s = .next { s with errNocfg := true }) ∧
    (∀ st raw, decode w = .ok (.sample st raw) → s.cfgValid = true → st.getLsbD 3 = false →
      acceptWord w s = .next s) ∧
    (∀ t, acceptWord w s = .next t → ∀ f g, errorFlag t f ≠ errorFlag s f → errorFlag t g ≠ errorFlag s g → f = g)

/-- The eight bits of `STATUS`, in every state: the bit table of 10_state section 3 (R28). That a read changes nothing is
StepReadingStatus, and that only commands and reset write the fields is FieldsAreWrittenByTheirOwnCausesOnly. -/
def Obligations.StatusPortLayout : Prop :=
  ∀ s : State,
    (statusPort s).getLsbD 0 = s.cfgValid ∧
    ((statusPort s).getLsbD 1 = true ↔ s.mode = .highRes12Bit) ∧
    ((statusPort s).getLsbD 2 = true ↔ s.profile = .physicalUnit) ∧
    (statusPort s).getLsbD 3 = false ∧
    (statusPort s).getLsbD 4 = s.errIllegal ∧
    (statusPort s).getLsbD 5 = s.errNocfg ∧
    (statusPort s).getLsbD 6 = s.errRecfg ∧
    (statusPort s).getLsbD 7 = false

/-- R27, R139: no accepted word clears an error flag, reset clears them all, and an error stops nothing: every word still
answers a next state, and what it does to the configuration and the output is the same whatever the flags are. -/
def Obligations.ErrorFlagsAreStickyAndStopNothing : Prop :=
  (∀ (w : Word) (s t : State) (f : ErrorFlag), acceptWord w s = .next t → errorFlag s f = true →
    errorFlag t f = true) ∧
  (∀ (s : State) (f : ErrorFlag), errorFlag (resetFields s) f = false) ∧
  (∀ (w : Word) (s : State) (a b c : Bool), ∃ t t' : State,
    acceptWord w s = .next t ∧
    acceptWord w { s with errIllegal := a, errNocfg := b, errRecfg := c } = .next t' ∧
    t'.cfgValid = t.cfgValid ∧ t'.mode = t.mode ∧ t'.profile = t.profile ∧ t'.emitted = t.emitted)

/-- R26: once configured, no word writes the configuration; before that, no word emits a packet, and what a word does never
depends on `MODE` and `PROFILE`. -/
def Obligations.ConfigurationGatesTheDatapath : Prop :=
  (∀ (w : Word) (s t : State), acceptWord w s = .next t → s.cfgValid = true →
    t.cfgValid = true ∧ t.mode = s.mode ∧ t.profile = s.profile) ∧
  (∀ (w : Word) (s t : State), acceptWord w s = .next t → s.cfgValid = false → t.emitted = s.emitted) ∧
  (∀ (w : Word) (s : State) (m : Mode) (p : Profile), s.cfgValid = false → ∃ t t' : State,
    acceptWord w s = .next t ∧ acceptWord w { s with mode := m, profile := p } = .next t' ∧
    t'.cfgValid = t.cfgValid ∧ t'.errIllegal = t.errIllegal ∧ t'.errNocfg = t.errNocfg ∧
    t'.errRecfg = t.errRecfg ∧ t'.emitted = t.emitted ∧
    (t.cfgValid = true → t'.mode = t.mode ∧ t'.profile = t.profile))

/-- R160, R162: reset loads every field with 0, so `STATUS = 0x00`, at power-on too; no command word is a reset; reset
recalls no packet, and after it no word emits one until SDF is configured again: reset leaves `CFG_VALID` 0, in every state
with `CFG_VALID` 0 an accepted word emits nothing, and only a `CFG` word takes SDF out of those states. -/
def Obligations.ResetLoadsEveryField : Prop :=
  (∀ s : State,
    (resetFields s).cfgValid = false ∧ (resetFields s).mode = .normal8Bit ∧ (resetFields s).profile = .rawScaled ∧
    (resetFields s).errIllegal = false ∧ (resetFields s).errNocfg = false ∧ (resetFields s).errRecfg = false ∧
    statusPort (resetFields s) = 0x00 ∧ (resetFields s).emitted = s.emitted) ∧
  (State.reset.cfgValid = false ∧ State.reset.mode = .normal8Bit ∧ State.reset.profile = .rawScaled ∧
    State.reset.errIllegal = false ∧ State.reset.errNocfg = false ∧ State.reset.errRecfg = false ∧
    statusPort State.reset = 0x00) ∧
  (∀ (w : Word) (s t : State), acceptWord w s = .next t →
    (s.cfgValid = true → t.cfgValid = true) ∧ ∀ f, errorFlag s f = true → errorFlag t f = true) ∧
  (∀ (w : Word) (s t : State), s.cfgValid = false → acceptWord w s = .next t →
    t.emitted = s.emitted ∧ ((∀ m p, decode w ≠ .ok (.cfg m p)) → t.cfgValid = false))

/-- The frame of the three commands (40_configuration, 42_packetizer: "State written"; R30): `NOP` changes nothing; `CFG`
changes none of `ERR_ILLEGAL`, `ERR_NOCFG` and the output, and once configured no configuration field; `SAMPLE` changes none
of `CFG_VALID`, `MODE`, `PROFILE`, `ERR_ILLEGAL`, `ERR_RECFG`, and either a flag or the output but not both; no command
touches what the model keeps for the ports (its own fields, log 1, log 3, log 5). -/
def Obligations.CommandFrames : Prop :=
  (∀ s t : State, exec .nop s = .next t → t = s) ∧
  (∀ (m : Mode) (p : Profile) (s t : State), exec (.cfg m p) s = .next t →
    t.errIllegal = s.errIllegal ∧ t.errNocfg = s.errNocfg ∧ t.emitted = s.emitted ∧
    (s.cfgValid = true → t.cfgValid = s.cfgValid ∧ t.mode = s.mode ∧ t.profile = s.profile) ∧
    (s.cfgValid = false → t.errRecfg = s.errRecfg)) ∧
  (∀ (st : Byte) (raw : RawBurst) (s t : State), exec (.sample st raw) s = .next t →
    t.cfgValid = s.cfgValid ∧ t.mode = s.mode ∧ t.profile = s.profile ∧ t.errIllegal = s.errIllegal ∧
    t.errRecfg = s.errRecfg ∧ (t.errNocfg = s.errNocfg ∨ t.emitted = s.emitted) ∧
    (s.cfgValid = true → t.errNocfg = s.errNocfg) ∧ (s.cfgValid = false → t.emitted = s.emitted)) ∧
  (∀ (i : Instr) (s t : State), exec i s = .next t →
    t.resetLine = s.resetLine ∧ t.hostInput = s.hostInput ∧ t.statusReads = s.statusReads)

/-- Two machines with the same configuration treat a word alike, whatever their flags, their past and what stands on their
ports: they append the same packets and stay equally configured (10_state section 5, 41_decoder R95; the spec marks R95 as
derived). -/
def Obligations.OutputDependsOnWordAndConfigurationOnly : Prop :=
  ∀ (w : Word) (s s' t t' : State), acceptWord w s = .next t → acceptWord w s' = .next t' →
    s'.cfgValid = s.cfgValid → s'.mode = s.mode → s'.profile = s.profile →
    t'.cfgValid = t.cfgValid ∧ t'.mode = t.mode ∧ t'.profile = t.profile ∧
    ∃ ps : List Packet, t.emitted = s.emitted ++ ps ∧ t'.emitted = s'.emitted ++ ps

/-! ## The step -/

/-- A step runs the decoded command: with the reset input released and a legal word presented next, it is `exec` of the
command at the state the event is taken off. That words wait in `hostInput` is the model's choice (log 1). -/
def Obligations.StepRunsThePresentedCommand : Prop :=
  ∀ (s : State) (w : Word) (es : List PortEvent) (i : Instr),
    s.hostInput = .command w :: es → s.resetLine = false → decode w = .ok i →
    step s = exec i { s with hostInput := es }

/-- A step on an illegal word sets `ERR_ILLEGAL` and nothing else but taking the event (log 1). -/
def Obligations.StepOnAnIllegalWord : Prop :=
  ∀ (s : State) (w : Word) (es : List PortEvent),
    s.hostInput = .command w :: es → s.resetLine = false → wordLegal w = false →
    step s = .next { s with hostInput := es, errIllegal := true }

/-- The reset input (70_reset section 1): asserting it loads every reset value and keeps the packets already emitted; a word
presented while it is asserted is not accepted; releasing it writes no field. The level and the events are the model's own
(log 1, log 3). -/
def Obligations.StepAtTheResetInput : Prop :=
  (∀ (s : State) (es : List PortEvent), s.hostInput = .assertReset :: es → ∃ t, step s = .next t ∧
    t = { State.reset with resetLine := true, hostInput := es, emitted := s.emitted, statusReads := s.statusReads } ∧
    statusPort t = 0x00) ∧
  (∀ (s : State) (w : Word) (es : List PortEvent), s.hostInput = .command w :: es → s.resetLine = true →
    step s = .next { s with hostInput := es }) ∧
  (∀ (s : State) (es : List PortEvent), s.hostInput = .releaseReset :: es →
    step s = .next { s with hostInput := es, resetLine := false })

/-- Reading `STATUS` has no side effect on SDF (10_state section 3, R29): the observation of R34 stays; the value read is
the port's, recorded in a field of the model's own (log 5). -/
def Obligations.StepReadingStatus : Prop :=
  ∀ (s : State) (es : List PortEvent), s.hostInput = .readStatus :: es → ∃ t, step s = .next t ∧
    t = { s with hostInput := es, statusReads := s.statusReads ++ [statusPort s] } ∧
    observe t = observe s

/-- A host that presents nothing leaves the state as it is (70_reset section 3, R170; log 2). -/
def Obligations.StepIdlesWithoutInput : Prop :=
  ∀ s : State, s.hostInput = [] → step s = .next s

/-- SDF never stops: from every state, reached or not, a step answers a next state (60_exceptions R136, R139; 92 D24: no
step of SDF can hang). -/
def Obligations.EveryStepAnswersANextState : Prop :=
  ∀ s : State, ∃ t : State, step s = .next t

/-- The invariant holds after reset. -/
def Obligations.ResetMeetsTheInvariant : Prop :=
  Inv State.reset

/-- Every step keeps the invariant: `MODE` and `PROFILE` are 0 until a `CFG`, the fields stay at their reset values while
reset is asserted, and every packet on the output port is whole, with header, footer and one of the two lengths (10_state
section 2, 20_memory section 3, 42_packetizer section 1, 70_reset section 1). -/
def Obligations.EveryStepKeepsTheInvariant : Prop :=
  ∀ s t : State, Inv s → step s = .next t → Inv t

/-- A step changes the output exactly when a configured SDF accepts a `SAMPLE` word whose bit 51 (`ST[3]`) is 1, and then it
appends one whole packet of the profile's length: no packet is recalled, split or reordered (20_memory sections 3 and 4,
42_packetizer, 70_reset R162). Events, reset level and the packet list are fields of the model's own (log 1, log 3, log 4). -/
def Obligations.PacketsAppearExactlyWhenDue : Prop :=
  ∀ s t : State, step s = .next t →
    (t.emitted ≠ s.emitted ↔
      s.cfgValid = true ∧ s.resetLine = false ∧
      ∃ w es, s.hostInput = .command w :: es ∧ w.extractLsb' 56 8 = 0x20#8 ∧ w.getLsbD 51 = true) ∧
    (t.emitted ≠ s.emitted → ∃ pk : Packet, t.emitted = s.emitted ++ [pk] ∧ wellFramed pk ∧
      pk.length = packetLength s.profile)

/-- The "written by" column of the state table (10_state section 2), over every event at the ports: each field is set only
by its own cause and cleared only by asserting reset. The events and the reset level are the model's own (log 1, log 3). -/
def Obligations.FieldsAreWrittenByTheirOwnCausesOnly : Prop :=
  ∀ s t : State, step s = .next t → s.hostInput.head? ≠ some .assertReset →
    (s.cfgValid = true → t.cfgValid = true) ∧
    (∀ f, errorFlag s f = true → errorFlag t f = true) ∧
    (t.cfgValid ≠ s.cfgValid ∨ t.mode ≠ s.mode ∨ t.profile ≠ s.profile →
      s.cfgValid = false ∧ s.resetLine = false ∧ ∃ w m p, s.hostInput.head? = some (.command w) ∧
        decode w = .ok (.cfg m p) ∧ t.mode = m ∧ t.profile = p) ∧
    (t.errIllegal ≠ s.errIllegal → s.resetLine = false ∧ ∃ w, s.hostInput.head? = some (.command w) ∧
      wordLegal w = false) ∧
    (t.errNocfg ≠ s.errNocfg → s.resetLine = false ∧ s.cfgValid = false ∧
      ∃ w st raw, s.hostInput.head? = some (.command w) ∧ decode w = .ok (.sample st raw)) ∧
    (t.errRecfg ≠ s.errRecfg → s.resetLine = false ∧ s.cfgValid = true ∧
      ∃ w m p, s.hostInput.head? = some (.command w) ∧ decode w = .ok (.cfg m p))

/-! ## Runs -/

/-- From every state the host's list of events is consumed, one event a step, and the machine never stops on the way. That
the host's events stand in `hostInput` and that a step takes one is the model's choice (log 1); that they take effect one
after another, each whole, is 20_memory sections 3 and 4. -/
def Obligations.RunsConsumeTheHostsInput : Prop :=
  ∀ s : State, ∃ t : State, core.run s.hostInput.length s = .next t ∧ t.hostInput = []

/-- From every configured state with the reset input released, a stream of any samples emits exactly the packets of those
with bit 3 set, in order, and changes nothing else (20_memory R49, 41_decoder R95, 42_packetizer R115, R117). That the stream stands in
`hostInput` is the model's choice (log 1). -/
def Obligations.SampleStreamEmitsTheReadySamplesInOrder : Prop :=
  ∀ (s : State) (samples : List (Byte × RawBurst)) (rest : List PortEvent),
    s.cfgValid = true → s.resetLine = false →
    s.hostInput = samples.map (fun x => PortEvent.command (encode (.sample x.1 x.2))) ++ rest →
    core.run samples.length s = .next
      { s with
        hostInput := rest
        emitted := s.emitted ++
          (samples.filter (fun x => x.1.getLsbD 3)).map (fun x => frame s.mode s.profile x.2) }

/-- A host that presents only legal words and, between two resets, one `CFG` before the first `SAMPLE`, never sees an error
flag: safe states step to safe states (70_reset R163, R166). The events and the reset level are the model's own (log 1, log 3). -/
def Obligations.DutifulHostNeverSeesAnError : Prop :=
  ∀ s t : State, safeState s = true → step s = .next t → safeState t = true

/-- For every `TX_DROP` the wire carries a subsequence of the emitted packets, in the same order (20_memory section 3, R48).
The last clause, that every subsequence arises from some drop pattern, is not in R48: it rests on the model's reading of
`TX_DROP` as one free draw per packet (log 6, DEDUCED, with 93 I3). -/
def Obligations.WireCarriesASubsequence : Prop :=
  (∀ (drop : Nat → Bool) (s : State), (wire drop s).Sublist s.emitted) ∧
  (∀ s : State, (wireOut s).Sublist s.emitted) ∧
  (∀ (s : State) (ps : List Packet), ps.Sublist s.emitted → ∃ drop : Nat → Bool, wire drop s = ps)

/-! ## The host's side -/

/-- One timer firing gives at most one consumed cycle (60_exceptions section 3, R148, marked by the spec as derived): from a
loop that is in a cycle only while the signal is set, the words presented are at most the expiries, and one more when the
signal is already set. -/
def Obligations.AtMostOneCyclePerFiring : Prop :=
  ∀ (h : LoopState) (es : List LoopEvent), (h.phase ≠ .waitSignal → h.signal = true) →
    (loopRun h es).2.length ≤ es.count .timerExpiry + (if h.signal then 1 else 0)

/-- If the timer is never started the loop stalls and SDF is presented nothing (60_exceptions section 3, R141; 70_reset
R170). -/
def Obligations.LoopStallsWithoutTheTimer : Prop :=
  ∀ es : List LoopEvent, .timerExpiry ∉ es →
    loopRun ⟨false, .waitSignal⟩ es = (⟨false, .waitSignal⟩, [])

/-- A failed bus read presents nothing and ends the cycle (60_exceptions section 3, R144); a cycle that is not ready clears
the signal whether it presents its `SAMPLE` or nothing (R143, R147), and to a configured SDF the two are the same. -/
def Obligations.AbortedCyclesGiveNoOutput : Prop :=
  (∀ bus : BusReading, bus.status = none → loopTurn ⟨true, .checkStatus⟩ bus = (⟨false, .waitSignal⟩, [])) ∧
  (∀ (st : Byte) (bus : BusReading), bus.burst = none →
    loopTurn ⟨true, .burstRead st⟩ bus = (⟨false, .waitSignal⟩, [])) ∧
  (∀ (st : Byte) (bus : BusReading), bus.status = some st → st.getLsbD 3 = false →
    (loopTurn ⟨true, .checkStatus⟩ bus).1 = ⟨false, .waitSignal⟩ ∧
    ∀ s : State, s.cfgValid = true → ∀ es : List PortEvent,
      core.run (loopTurn ⟨true, .checkStatus⟩ bus).2.length
        { s with hostInput := (loopTurn ⟨true, .checkStatus⟩ bus).2 ++ es } = .next { s with hostInput := es })
end

