-- ==== Sys2Proof/Laws/Datapath.lean ====
section
/-!
SUPPORT. The primitives of the decode datapath in the terms that `omega` and `simp` work with.
-/
namespace Sys2Proof.Machine

/-- Rounding toward minus infinity is Lean's integer division by a positive power of two. -/
theorem asr_eq_ediv (x : Int) (n : Nat) : asr x n = x / 2 ^ n :=
  Int.fdiv_eq_ediv_of_nonneg x (by positivity)

/-- The sign interpretation is the signed value of the bit vector. -/
theorem sext16_eq_toInt (v : Half) : sext16 v = v.toInt := by
  have h : v.getLsbD 15 = v.msb := by simp [BitVec.msb_eq_getLsbD_last]
  unfold sext16
  rw [h, BitVec.toInt_eq_msb_cond]
  split <;> simp

theorem leBytes_two (x : Int) :
    leBytes 2 x = [(BitVec.ofInt 16 x).extractLsb' 0 8, (BitVec.ofInt 16 x).extractLsb' 8 8] := rfl

theorem leBytes_four (x : Int) :
    leBytes 4 x = [(BitVec.ofInt 32 x).extractLsb' 0 8, (BitVec.ofInt 32 x).extractLsb' 8 8,
      (BitVec.ofInt 32 x).extractLsb' 16 8, (BitVec.ofInt 32 x).extractLsb' 24 8] := rfl

@[simp] theorem leBytes_length (n : Nat) (x : Int) : (leBytes n x).length = n := by
  simp [leBytes]

@[simp] theorem axisPayload_length (m : Mode) (p : Profile) (lsb msb : Byte) :
    (axisPayload m p lsb msb).length = axisBytes p := leBytes_length _ _

/-- The framing function with its three payloads written out. -/
theorem frame_eq (m : Mode) (p : Profile) (raw : RawBurst) :
    frame m p raw = header :: (axisPayload m p raw.xLsb raw.xMsb ++ (axisPayload m p raw.yLsb raw.yMsb ++
      (axisPayload m p raw.zLsb raw.zMsb ++ [footer]))) := by
  simp [frame, axes, lsbOf, msbOf]

end Sys2Proof.Machine
end

