-- ==== Sys2Proof/Laws/Decode.lean ====
section
/-!
SUPPORT. What the decoder answers, once for each of its four cases.
-/
namespace Sys2Proof

@[simp] theorem modeOfBit_modeBit (m : Mode) : modeOfBit (modeBit m) = m := by cases m <;> rfl

@[simp] theorem modeBit_modeOfBit (b : Bool) : modeBit (modeOfBit b) = b := by cases b <;> rfl

@[simp] theorem profileOfBit_profileBit (p : Profile) : profileOfBit (profileBit p) = p := by cases p <;> rfl

@[simp] theorem profileBit_profileOfBit (b : Bool) : profileBit (profileOfBit b) = b := by cases b <;> rfl

/-- Everything the decoder can answer for a word. -/
theorem decode_cases (w : Word) :
    (rowMatches nopRow w = true ∧ decode w = .ok .nop) ∨
    (rowMatches cfgRow w = true ∧
      decode w = .ok (.cfg (modeOfBit (w.getLsbD 0)) (profileOfBit (w.getLsbD 1)))) ∨
    (rowMatches sampleRow w = true ∧ decode w = .ok (.sample (stField w) (rawOfWord w))) ∨
    (rowMatches nopRow w = false ∧ rowMatches cfgRow w = false ∧ rowMatches sampleRow w = false ∧
      decode w = .error (illegalReason w)) := by
  unfold decode
  cases h1 : rowMatches nopRow w <;> cases h2 : rowMatches cfgRow w <;> cases h3 : rowMatches sampleRow w <;> simp

theorem rowMatches_iff (r : OpcodeRow) (w : Word) : rowMatches r w = true ↔ w &&& r.mask = r.pattern := by
  simp [rowMatches]

/-- A masked comparison, bit by bit. -/
theorem getLsbD_of_and_eq {w m p : Word} (h : w &&& m = p) (i : Nat) :
    (w.getLsbD i && m.getLsbD i) = p.getLsbD i := by
  rw [← h, BitVec.getLsbD_and]

theorem rowMatches_nop_iff (w : Word) : rowMatches nopRow w = true ↔ w = 0 := by
  have h : nopRow.mask = BitVec.allOnes 64 := by decide
  rw [rowMatches_iff, h, BitVec.and_allOnes]
  rfl

/-- A `CFG` word's mask and pattern, as its top 62 bits. -/
theorem rowMatches_cfg_iff (w : Word) :
    rowMatches cfgRow w = true ↔ w.extractLsb' 2 62 = 0x0400000000000000#62 := by
  rw [rowMatches_iff]
  refine ⟨fun h => BitVec.eq_of_getLsbD_eq fun i hi => ?_, fun h => BitVec.eq_of_getLsbD_eq fun i hi => ?_⟩
  · have hb := getLsbD_of_and_eq h (2 + i)
    interval_cases i <;> simpa [cfgRow] using hb
  · by_cases h2 : i < 2
    · interval_cases i <;> simp [cfgRow]
    · have hb := congrArg (fun v : BitVec 62 => v.getLsbD (i - 2)) h
      interval_cases i <;> simpa [cfgRow] using hb

/-- A `SAMPLE` word's mask and pattern, as its top byte. -/
theorem rowMatches_sample_iff (w : Word) : rowMatches sampleRow w = true ↔ w.extractLsb' 56 8 = 0x20#8 := by
  rw [rowMatches_iff]
  refine ⟨fun h => BitVec.eq_of_getLsbD_eq fun i hi => ?_, fun h => BitVec.eq_of_getLsbD_eq fun i hi => ?_⟩
  · have hb := getLsbD_of_and_eq h (56 + i)
    interval_cases i <;> simpa [sampleRow] using hb
  · by_cases h56 : i < 56
    · interval_cases i <;> simp [sampleRow]
    · have hb := congrArg (fun v : Byte => v.getLsbD (i - 56)) h
      interval_cases i <;> simpa [sampleRow] using hb

/-- Every bit of a `SAMPLE` word, field by field (R64). -/
theorem getLsbD_encode_sample (st : Byte) (raw : RawBurst) (i : Nat) :
    (encode (.sample st raw)).getLsbD i =
      if i < 8 then raw.xLsb.getLsbD i else if i < 16 then raw.xMsb.getLsbD (i - 8)
      else if i < 24 then raw.yLsb.getLsbD (i - 16) else if i < 32 then raw.yMsb.getLsbD (i - 24)
      else if i < 40 then raw.zLsb.getLsbD (i - 32) else if i < 48 then raw.zMsb.getLsbD (i - 40)
      else if i < 56 then st.getLsbD (i - 48) else (0x20#8).getLsbD (i - 56) := by
  have h : (0x20#8) = (0x2#4 ++ 0x0#4 : BitVec (4 + 4)) := rfl
  rw [h]
  simp only [encode, rawBits]
  repeat rw [BitVec.getLsbD_append]
  by_cases h48 : i < 48
  · rw [if_pos h48]
    repeat' (first | rw [if_pos (by omega)] | rw [if_neg (by omega)] | split)
    all_goals rfl
  · rw [if_neg h48]
    repeat' (first | rw [if_pos (by omega)] | rw [if_neg (by omega)] | split)
    all_goals rfl

end Sys2Proof
end

