-- ==== Sys2Proof/Laws/State.lean ====
section
/-!
SUPPORT. What each update of the state does to each field, one lemma per field per update.
-/
namespace Sys2Proof.Machine

@[simp] theorem raiseIllegal_cfgValid (s : State) : (raiseError .illegal s).cfgValid = s.cfgValid := rfl
@[simp] theorem raiseIllegal_mode (s : State) : (raiseError .illegal s).mode = s.mode := rfl
@[simp] theorem raiseIllegal_profile (s : State) : (raiseError .illegal s).profile = s.profile := rfl
@[simp] theorem raiseIllegal_errIllegal (s : State) : (raiseError .illegal s).errIllegal = true := rfl
@[simp] theorem raiseIllegal_errNocfg (s : State) : (raiseError .illegal s).errNocfg = s.errNocfg := rfl
@[simp] theorem raiseIllegal_errRecfg (s : State) : (raiseError .illegal s).errRecfg = s.errRecfg := rfl
@[simp] theorem raiseIllegal_resetLine (s : State) : (raiseError .illegal s).resetLine = s.resetLine := rfl
@[simp] theorem raiseIllegal_hostInput (s : State) : (raiseError .illegal s).hostInput = s.hostInput := rfl
@[simp] theorem raiseIllegal_emitted (s : State) : (raiseError .illegal s).emitted = s.emitted := rfl
@[simp] theorem raiseIllegal_statusReads (s : State) : (raiseError .illegal s).statusReads = s.statusReads := rfl

@[simp] theorem raiseNocfg_cfgValid (s : State) : (raiseError .nocfg s).cfgValid = s.cfgValid := rfl
@[simp] theorem raiseNocfg_mode (s : State) : (raiseError .nocfg s).mode = s.mode := rfl
@[simp] theorem raiseNocfg_profile (s : State) : (raiseError .nocfg s).profile = s.profile := rfl
@[simp] theorem raiseNocfg_errIllegal (s : State) : (raiseError .nocfg s).errIllegal = s.errIllegal := rfl
@[simp] theorem raiseNocfg_errNocfg (s : State) : (raiseError .nocfg s).errNocfg = true := rfl
@[simp] theorem raiseNocfg_errRecfg (s : State) : (raiseError .nocfg s).errRecfg = s.errRecfg := rfl
@[simp] theorem raiseNocfg_resetLine (s : State) : (raiseError .nocfg s).resetLine = s.resetLine := rfl
@[simp] theorem raiseNocfg_hostInput (s : State) : (raiseError .nocfg s).hostInput = s.hostInput := rfl
@[simp] theorem raiseNocfg_emitted (s : State) : (raiseError .nocfg s).emitted = s.emitted := rfl
@[simp] theorem raiseNocfg_statusReads (s : State) : (raiseError .nocfg s).statusReads = s.statusReads := rfl

@[simp] theorem raiseRecfg_cfgValid (s : State) : (raiseError .recfg s).cfgValid = s.cfgValid := rfl
@[simp] theorem raiseRecfg_mode (s : State) : (raiseError .recfg s).mode = s.mode := rfl
@[simp] theorem raiseRecfg_profile (s : State) : (raiseError .recfg s).profile = s.profile := rfl
@[simp] theorem raiseRecfg_errIllegal (s : State) : (raiseError .recfg s).errIllegal = s.errIllegal := rfl
@[simp] theorem raiseRecfg_errNocfg (s : State) : (raiseError .recfg s).errNocfg = s.errNocfg := rfl
@[simp] theorem raiseRecfg_errRecfg (s : State) : (raiseError .recfg s).errRecfg = true := rfl
@[simp] theorem raiseRecfg_resetLine (s : State) : (raiseError .recfg s).resetLine = s.resetLine := rfl
@[simp] theorem raiseRecfg_hostInput (s : State) : (raiseError .recfg s).hostInput = s.hostInput := rfl
@[simp] theorem raiseRecfg_emitted (s : State) : (raiseError .recfg s).emitted = s.emitted := rfl
@[simp] theorem raiseRecfg_statusReads (s : State) : (raiseError .recfg s).statusReads = s.statusReads := rfl

@[simp] theorem configure_cfgValid (m : Mode) (p : Profile) (s : State) : (configure m p s).cfgValid = true := rfl
@[simp] theorem configure_mode (m : Mode) (p : Profile) (s : State) : (configure m p s).mode = m := rfl
@[simp] theorem configure_profile (m : Mode) (p : Profile) (s : State) : (configure m p s).profile = p := rfl
@[simp] theorem configure_errIllegal (m : Mode) (p : Profile) (s : State) : (configure m p s).errIllegal = s.errIllegal := rfl
@[simp] theorem configure_errNocfg (m : Mode) (p : Profile) (s : State) : (configure m p s).errNocfg = s.errNocfg := rfl
@[simp] theorem configure_errRecfg (m : Mode) (p : Profile) (s : State) : (configure m p s).errRecfg = s.errRecfg := rfl
@[simp] theorem configure_resetLine (m : Mode) (p : Profile) (s : State) : (configure m p s).resetLine = s.resetLine := rfl
@[simp] theorem configure_hostInput (m : Mode) (p : Profile) (s : State) : (configure m p s).hostInput = s.hostInput := rfl
@[simp] theorem configure_emitted (m : Mode) (p : Profile) (s : State) : (configure m p s).emitted = s.emitted := rfl
@[simp] theorem configure_statusReads (m : Mode) (p : Profile) (s : State) : (configure m p s).statusReads = s.statusReads := rfl

@[simp] theorem emit_cfgValid (pk : Packet) (s : State) : (emit pk s).cfgValid = s.cfgValid := rfl
@[simp] theorem emit_mode (pk : Packet) (s : State) : (emit pk s).mode = s.mode := rfl
@[simp] theorem emit_profile (pk : Packet) (s : State) : (emit pk s).profile = s.profile := rfl
@[simp] theorem emit_errIllegal (pk : Packet) (s : State) : (emit pk s).errIllegal = s.errIllegal := rfl
@[simp] theorem emit_errNocfg (pk : Packet) (s : State) : (emit pk s).errNocfg = s.errNocfg := rfl
@[simp] theorem emit_errRecfg (pk : Packet) (s : State) : (emit pk s).errRecfg = s.errRecfg := rfl
@[simp] theorem emit_resetLine (pk : Packet) (s : State) : (emit pk s).resetLine = s.resetLine := rfl
@[simp] theorem emit_hostInput (pk : Packet) (s : State) : (emit pk s).hostInput = s.hostInput := rfl
@[simp] theorem emit_emitted (pk : Packet) (s : State) : (emit pk s).emitted = s.emitted ++ [pk] := rfl
@[simp] theorem emit_statusReads (pk : Packet) (s : State) : (emit pk s).statusReads = s.statusReads := rfl

@[simp] theorem resetFields_cfgValid (s : State) : (resetFields s).cfgValid = false := rfl
@[simp] theorem resetFields_mode (s : State) : (resetFields s).mode = .normal8Bit := rfl
@[simp] theorem resetFields_profile (s : State) : (resetFields s).profile = .rawScaled := rfl
@[simp] theorem resetFields_errIllegal (s : State) : (resetFields s).errIllegal = false := rfl
@[simp] theorem resetFields_errNocfg (s : State) : (resetFields s).errNocfg = false := rfl
@[simp] theorem resetFields_errRecfg (s : State) : (resetFields s).errRecfg = false := rfl
@[simp] theorem resetFields_resetLine (s : State) : (resetFields s).resetLine = s.resetLine := rfl
@[simp] theorem resetFields_hostInput (s : State) : (resetFields s).hostInput = s.hostInput := rfl
@[simp] theorem resetFields_emitted (s : State) : (resetFields s).emitted = s.emitted := rfl
@[simp] theorem resetFields_statusReads (s : State) : (resetFields s).statusReads = s.statusReads := rfl

@[simp] theorem driveReset_cfgValid (b : Bool) (s : State) : (driveReset b s).cfgValid = s.cfgValid := rfl
@[simp] theorem driveReset_mode (b : Bool) (s : State) : (driveReset b s).mode = s.mode := rfl
@[simp] theorem driveReset_profile (b : Bool) (s : State) : (driveReset b s).profile = s.profile := rfl
@[simp] theorem driveReset_errIllegal (b : Bool) (s : State) : (driveReset b s).errIllegal = s.errIllegal := rfl
@[simp] theorem driveReset_errNocfg (b : Bool) (s : State) : (driveReset b s).errNocfg = s.errNocfg := rfl
@[simp] theorem driveReset_errRecfg (b : Bool) (s : State) : (driveReset b s).errRecfg = s.errRecfg := rfl
@[simp] theorem driveReset_resetLine (b : Bool) (s : State) : (driveReset b s).resetLine = b := rfl
@[simp] theorem driveReset_hostInput (b : Bool) (s : State) : (driveReset b s).hostInput = s.hostInput := rfl
@[simp] theorem driveReset_emitted (b : Bool) (s : State) : (driveReset b s).emitted = s.emitted := rfl
@[simp] theorem driveReset_statusReads (b : Bool) (s : State) : (driveReset b s).statusReads = s.statusReads := rfl

@[simp] theorem recordStatus_cfgValid (s : State) : (recordStatus s).cfgValid = s.cfgValid := rfl
@[simp] theorem recordStatus_mode (s : State) : (recordStatus s).mode = s.mode := rfl
@[simp] theorem recordStatus_profile (s : State) : (recordStatus s).profile = s.profile := rfl
@[simp] theorem recordStatus_errIllegal (s : State) : (recordStatus s).errIllegal = s.errIllegal := rfl
@[simp] theorem recordStatus_errNocfg (s : State) : (recordStatus s).errNocfg = s.errNocfg := rfl
@[simp] theorem recordStatus_errRecfg (s : State) : (recordStatus s).errRecfg = s.errRecfg := rfl
@[simp] theorem recordStatus_resetLine (s : State) : (recordStatus s).resetLine = s.resetLine := rfl
@[simp] theorem recordStatus_hostInput (s : State) : (recordStatus s).hostInput = s.hostInput := rfl
@[simp] theorem recordStatus_emitted (s : State) : (recordStatus s).emitted = s.emitted := rfl
@[simp] theorem recordStatus_statusReads (s : State) : (recordStatus s).statusReads = s.statusReads ++ [statusPort s] := rfl

@[simp] theorem dropEvent_cfgValid (s : State) : (dropEvent s).cfgValid = s.cfgValid := rfl
@[simp] theorem dropEvent_mode (s : State) : (dropEvent s).mode = s.mode := rfl
@[simp] theorem dropEvent_profile (s : State) : (dropEvent s).profile = s.profile := rfl
@[simp] theorem dropEvent_errIllegal (s : State) : (dropEvent s).errIllegal = s.errIllegal := rfl
@[simp] theorem dropEvent_errNocfg (s : State) : (dropEvent s).errNocfg = s.errNocfg := rfl
@[simp] theorem dropEvent_errRecfg (s : State) : (dropEvent s).errRecfg = s.errRecfg := rfl
@[simp] theorem dropEvent_resetLine (s : State) : (dropEvent s).resetLine = s.resetLine := rfl
@[simp] theorem dropEvent_hostInput (s : State) : (dropEvent s).hostInput = s.hostInput.tail := rfl
@[simp] theorem dropEvent_emitted (s : State) : (dropEvent s).emitted = s.emitted := rfl
@[simp] theorem dropEvent_statusReads (s : State) : (dropEvent s).statusReads = s.statusReads := rfl

@[simp] theorem presentWord_cfgValid (w : Word) (s : State) : (presentWord w s).cfgValid = s.cfgValid := rfl
@[simp] theorem presentWord_mode (w : Word) (s : State) : (presentWord w s).mode = s.mode := rfl
@[simp] theorem presentWord_profile (w : Word) (s : State) : (presentWord w s).profile = s.profile := rfl
@[simp] theorem presentWord_errIllegal (w : Word) (s : State) : (presentWord w s).errIllegal = s.errIllegal := rfl
@[simp] theorem presentWord_errNocfg (w : Word) (s : State) : (presentWord w s).errNocfg = s.errNocfg := rfl
@[simp] theorem presentWord_errRecfg (w : Word) (s : State) : (presentWord w s).errRecfg = s.errRecfg := rfl
@[simp] theorem presentWord_resetLine (w : Word) (s : State) : (presentWord w s).resetLine = false := rfl
@[simp] theorem presentWord_hostInput (w : Word) (s : State) : (presentWord w s).hostInput = .command w :: s.hostInput := rfl
@[simp] theorem presentWord_emitted (w : Word) (s : State) : (presentWord w s).emitted = s.emitted := rfl
@[simp] theorem presentWord_statusReads (w : Word) (s : State) : (presentWord w s).statusReads = s.statusReads := rfl

end Sys2Proof.Machine
end

