-- ==== Sys2Proof/Laws/Ops.lean ====
section
/-!
SUPPORT. What each shared operation can answer, said once; a proof about a command or a step cites these.
-/
namespace Sys2Proof.Machine

@[simp] theorem errorFlag_raiseError_self (f : ErrorFlag) (s : State) : errorFlag (raiseError f s) f = true := by
  cases f <;> rfl

/-- Raising an error leaves the other two flags alone. -/
theorem errorFlag_raiseError_of_ne {f g : ErrorFlag} (h : g ≠ f) (s : State) :
    errorFlag (raiseError f s) g = errorFlag s g := by
  cases f <;> cases g <;> first | rfl | exact absurd rfl h

/-- Everything a `CFG` can answer. -/
theorem execCfg_cases (m : Mode) (p : Profile) (s : State) :
    (s.cfgValid = true ∧ execCfg m p s = .next (raiseError .recfg s)) ∨
    (s.cfgValid = false ∧ execCfg m p s = .next (configure m p s)) := by
  cases h : s.cfgValid <;> simp [execCfg, h]

/-- Everything a `SAMPLE` can answer. -/
theorem execSample_cases (st : Byte) (raw : RawBurst) (s : State) :
    (s.cfgValid = false ∧ execSample st raw s = .next (raiseError .nocfg s)) ∨
    (s.cfgValid = true ∧ dataReady st = false ∧ execSample st raw s = .next s) ∨
    (s.cfgValid = true ∧ dataReady st = true ∧
      execSample st raw s = .next (emit (frame s.mode s.profile raw) s)) := by
  cases h : s.cfgValid <;> cases hd : dataReady st <;> simp [execSample, h, hd]

/-- What an accepted word can do to the state: nothing, one error, the first configuration, or one packet. -/
inductive Effect (w : Word) (s : State) : State → Prop where
  | nothing (h : decode w = .ok .nop ∨ ∃ st raw, decode w = .ok (.sample st raw) ∧ s.cfgValid = true ∧
      dataReady st = false) : Effect w s s
  | illegal (r : IllegalWord) (h : decode w = .error r) : Effect w s (raiseError .illegal s)
  | recfg (m : Mode) (p : Profile) (h : decode w = .ok (.cfg m p)) (hv : s.cfgValid = true) :
      Effect w s (raiseError .recfg s)
  | nocfg (st : Byte) (raw : RawBurst) (h : decode w = .ok (.sample st raw)) (hv : s.cfgValid = false) :
      Effect w s (raiseError .nocfg s)
  | configured (m : Mode) (p : Profile) (h : decode w = .ok (.cfg m p)) (hv : s.cfgValid = false) :
      Effect w s (configure m p s)
  | packet (st : Byte) (raw : RawBurst) (h : decode w = .ok (.sample st raw)) (hv : s.cfgValid = true)
      (hd : dataReady st = true) : Effect w s (emit (frame s.mode s.profile raw) s)

/-- An accepted word answers a next state, and its effect is one of those of `Effect`. -/
theorem acceptWord_effect (w : Word) (s : State) : ∃ t, acceptWord w s = .next t ∧ Effect w s t := by
  unfold acceptWord
  cases hd : decode w with
  | error r => exact ⟨_, rfl, .illegal r hd⟩
  | ok i =>
    cases i with
    | nop => exact ⟨s, rfl, .nothing (.inl hd)⟩
    | cfg m p =>
      rcases execCfg_cases m p s with ⟨hv, he⟩ | ⟨hv, he⟩
      · exact ⟨_, he, .recfg m p hd hv⟩
      · exact ⟨_, he, .configured m p hd hv⟩
    | sample st raw =>
      rcases execSample_cases st raw s with ⟨hv, he⟩ | ⟨hv, hr, he⟩ | ⟨hv, hr, he⟩
      · exact ⟨_, he, .nocfg st raw hd hv⟩
      · exact ⟨_, he, .nothing (.inr ⟨st, raw, hd, hv, hr⟩)⟩
      · exact ⟨_, he, .packet st raw hd hv hr⟩

/-- The effect of an accepted word that answers a next state. -/
theorem effect_of_acceptWord {w : Word} {s t : State} (h : acceptWord w s = .next t) : Effect w s t := by
  obtain ⟨u, hu, he⟩ := acceptWord_effect w s
  rw [hu] at h
  cases h
  exact he

/-- A word at the command port: dropped while reset is asserted, accepted otherwise. -/
theorem commandPort_cases (w : Word) (s : State) :
    (s.resetLine = true ∧ commandPort w s = .next s) ∨
    (s.resetLine = false ∧ commandPort w s = acceptWord w s) := by
  cases h : s.resetLine <;> simp [commandPort, h]

end Sys2Proof.Machine
end

