-- ==== Sys2Proof/Laws/PerInstr.lean ====
section
/-!
SUPPORT. What holds of each command as syntax: its encoding is a word of its own row of the opcode table, and legal.
-/
namespace Sys2Proof.Laws.EncodesItsRow

/-- The opcode table row of a command. -/
def rowOf : Instr → OpcodeRow
  | .nop => nopRow
  | .cfg _ _ => cfgRow
  | .sample _ _ => sampleRow

/-- The encoding matches the command's own row and is a word with no reserved encoding. -/
def Statement (i : Instr) : Prop := rowMatches (rowOf i) (encode i) = true ∧ wordLegal (encode i) = true

theorem nop : Statement .nop := by
  refine ⟨?_, ?_⟩ <;> decide

theorem cfg (m : Mode) (p : Profile) : Statement (.cfg m p) := by
  cases m <;> cases p <;> refine ⟨?_, ?_⟩ <;> decide

theorem sample (st : Byte) (raw : RawBurst) : Statement (.sample st raw) := by
  have htop : (encode (.sample st raw)).extractLsb' 56 8 = 0x20#8 := by
    apply BitVec.eq_of_getLsbD_eq
    intro i hi
    rw [BitVec.getLsbD_extractLsb', getLsbD_encode_sample]
    interval_cases i <;> simp
  have hopc : opcField (encode (.sample st raw)) = 2 := by
    apply BitVec.eq_of_getLsbD_eq
    intro i hi
    rw [opcField, BitVec.getLsbD_extractLsb', getLsbD_encode_sample]
    interval_cases i <;> simp
  have hrsv : rsvField (encode (.sample st raw)) = 0 := by
    apply BitVec.eq_of_getLsbD_eq
    intro i hi
    rw [rsvField, BitVec.getLsbD_extractLsb', getLsbD_encode_sample]
    interval_cases i <;> simp
  refine ⟨(rowMatches_sample_iff _).2 htop, ?_⟩
  simp [wordLegal, opcodeDefined, rsvClear, nopPayloadClear, cfgPayloadClear, hopc, hrsv]

end Sys2Proof.Laws.EncodesItsRow
end

