-- ==== Sys2Proof/Laws/Step.lean ====
section
/-!
SUPPORT. Everything one step can do.
-/
namespace Sys2Proof.Machine

/-- The inversion of a step: the host presents nothing, or its next event happens at the ports. -/
theorem step_cases {s t : State} (h : step s = .next t) :
    (s.hostInput = [] ∧ t = s) ∨
    (∃ w es, s.hostInput = .command w :: es ∧ s.resetLine = true ∧ t = dropEvent s) ∨
    (∃ w es, s.hostInput = .command w :: es ∧ s.resetLine = false ∧ Effect w (dropEvent s) t) ∨
    (∃ es, s.hostInput = .assertReset :: es ∧ t = resetFields (driveReset true (dropEvent s))) ∨
    (∃ es, s.hostInput = .releaseReset :: es ∧ t = driveReset false (dropEvent s)) ∨
    (∃ es, s.hostInput = .readStatus :: es ∧ t = recordStatus (dropEvent s)) := by
  unfold step takeEvent at h
  cases hi : s.hostInput with
  | nil =>
    rw [hi] at h
    cases h
    exact .inl ⟨rfl, rfl⟩
  | cons e es =>
    rw [hi] at h
    cases e with
    | command w =>
      rcases commandPort_cases w (dropEvent s) with ⟨hr, he⟩ | ⟨hr, he⟩
      · cases he.symm.trans h
        exact .inr (.inl ⟨w, es, rfl, hr, rfl⟩)
      · exact .inr (.inr (.inl ⟨w, es, rfl, hr, effect_of_acceptWord (he.symm.trans h)⟩))
    | assertReset => cases h; exact .inr (.inr (.inr (.inl ⟨es, rfl, rfl⟩)))
    | releaseReset => cases h; exact .inr (.inr (.inr (.inr (.inl ⟨es, rfl, rfl⟩))))
    | readStatus => cases h; exact .inr (.inr (.inr (.inr (.inr ⟨es, rfl, rfl⟩))))

/-- A run of one step more. -/
theorem run_of_step (M : Host.Core) (k : Nat) (s t : M.State) (h : M.step s = .next t) : M.run (k + 1) s = M.run k t := by
  simp only [Host.Core.run, h]

end Sys2Proof.Machine
end

