-- ==== Sys2Proof/Tests/Slice0.lean ====
section
/-!
SUPPORT. The model's own tests. Expected results are from the spec's examples and vectors (95_test_vectors, named at each
test), never from the model. The second half holds a witness for the hypotheses of each statement that has any.
-/
namespace Sys2Proof.Tests

open Sys2Proof.Machine

/-- A configured machine with no error flag. -/
def configuredAs (m : Mode) (p : Profile) : State := configure m p State.reset

/-- A machine whose host is about to do something. -/
def hostWill (es : List PortEvent) (s : State) : State := { s with hostInput := es }

/-- The next state of an outcome, for tests that read one field of it. -/
def nextOf : Host.Outcome State Fault Refusal → Option State
  | .next s => some s
  | .fault _ => none
  | .refused _ => none

/-- The burst of the worked example, 95 section 1. -/
def exampleBurst : RawBurst := ⟨0x00, 0x10, 0x00, 0x20, 0x00, 0x30⟩

/-! ## Well-formedness: an ill-formed word for each check -/

theorem test_reserved_opcode_refused : opcodeDefined 0x3000000000000000 = false ∧ wordLegal 0x3000000000000000 = false := by
  decide

theorem test_rsv_bit_refused : rsvClear 0x2108300020001000 = false ∧ wordLegal 0x2108300020001000 = false := by decide

theorem test_nop_payload_refused : nopPayloadClear 0x0000000000000001 = false ∧ wordLegal 0x0000000000000001 = false := by
  decide

theorem test_cfg_payload_refused : cfgPayloadClear 0x1000000000000004 = false ∧ wordLegal 0x1000000000000004 = false := by
  decide

/-! ## Decoding: every row of 95 section 2.1 -/

theorem test_decode_nop :
    decode 0x0000000000000000 = .ok .nop ∧ decode 0x0000000000000001 = .error .reservedBitSet ∧
      decode 0x0100000000000000 = .error .reservedBitSet := by decide

theorem test_decode_cfg :
    decode 0x1000000000000003 = .ok (.cfg .highRes12Bit .physicalUnit) ∧
      decode 0x1000000000000002 = .ok (.cfg .normal8Bit .physicalUnit) ∧
      decode 0x1000000000000004 = .error .reservedBitSet ∧ decode 0x1800000000000000 = .error .reservedBitSet := by
  decide

theorem test_decode_sample :
    decode 0x2008300020001000 = .ok (.sample 0x08 exampleBurst) ∧
      decode 0x20FFFFFFFFFFFFFF = .ok (.sample 0xFF ⟨0xFF, 0xFF, 0xFF, 0xFF, 0xFF, 0xFF⟩) ∧
      decode 0x2108300020001000 = .error .reservedBitSet := by decide

theorem test_decode_reserved_opcodes :
    decode 0x3000000000000000 = .error .reservedOpcode ∧ decode 0xF000000000000000 = .error .reservedOpcode := by decide

/-- R70's word of program P2's third line (95 section 3). -/
theorem test_encode_sample : encode (.sample 0x08 ⟨0xC0, 0xFF, 0x40, 0x00, 0x00, 0x80⟩) = 0x200880000040FFC0 := by decide

theorem test_decodeTableWord :
    decodeTableWord 64 0x1000000000000001 = some (.cfg .highRes12Bit .rawScaled) ∧
      decodeTableWord 64 0x3000000000000000 = none := by decide

/-! ## The datapath: 95 sections 2.3 to 2.5 -/

theorem test_shifted_values :
    shiftedValue .normal8Bit 0x3F 0x00 = 0 ∧ shiftedValue .normal8Bit 0x00 0x80 = -512 ∧
      shiftedValue .normal8Bit 0x80 0xFF = -2 ∧ shiftedValue .normal8Bit 0xFF 0xFF = -1 ∧
      shiftedValue .highRes12Bit 0xF8 0xFF = -1 ∧ shiftedValue .highRes12Bit 0xFF 0x7F = 2047 ∧
      shiftedValue .highRes12Bit 0x60 0xF0 = -250 := by decide

theorem test_raw_scaled_bytes :
    leBytes 2 (rawScaledValue 250) = [0xE8, 0x03] ∧ leBytes 2 (rawScaledValue (-250)) = [0x18, 0xFC] ∧
      leBytes 2 (rawScaledValue (-2048)) = [0x00, 0xE0] := by decide

theorem test_physical_bytes :
    leBytes 4 (physicalValue (-1)) = [0xED, 0xFF, 0xFF, 0xFF] ∧ leBytes 4 (physicalValue 750) = [0x75, 0x39, 0x00, 0x00] ∧
      leBytes 4 (physicalValue (-51)) = [0x18, 0xFC, 0xFF, 0xFF] ∧
      leBytes 4 (physicalValue (-2048)) = [0x1B, 0x63, 0xFF, 0xFF] := by decide

/-- 95 section 2.6, one row of each mixed configuration. -/
theorem test_packets :
    frame .highRes12Bit .rawScaled ⟨0xFF, 0x7F, 0x00, 0x80, 0xF8, 0xFF⟩ =
        [0xA0, 0xFC, 0x1F, 0x00, 0xE0, 0xFC, 0xFF, 0xC0] ∧
      frame .normal8Bit .physicalUnit ⟨0xFF, 0x7F, 0x00, 0x80, 0xFF, 0xFF⟩ =
        [0xA0, 0x25, 0x27, 0x00, 0x00, 0xC7, 0xD8, 0xFF, 0xFF, 0xED, 0xFF, 0xFF, 0xFF, 0xC0] := by decide

/-! ## The commands: 95 sections 2.2 and 2.7 -/

theorem test_nop_status : (nextOf (exec .nop State.reset)).map statusPort = some 0x00 := by decide

/-- After a `SAMPLE` before configuration, `STATUS` is 20; a `CFG` then gives 25. -/
theorem test_cfg_after_nocfg :
    (nextOf (exec (.cfg .normal8Bit .physicalUnit) (raiseError .nocfg State.reset))).map statusPort = some 0x25 := by decide

theorem test_cfg_again_same_values :
    (nextOf (exec (.cfg .highRes12Bit .physicalUnit) (configuredAs .highRes12Bit .physicalUnit))).map statusPort =
      some 0x47 := by decide

/-- The source's example, corrected (95 section 1). -/
theorem test_sample_example :
    (nextOf (exec (.sample 0x08 exampleBurst) (configuredAs .highRes12Bit .physicalUnit))).map (·.emitted) =
      some [[0xA0, 0x9C, 0x13, 0x00, 0x00, 0x39, 0x27, 0x00, 0x00, 0xD6, 0x3A, 0x00, 0x00, 0xC0]] := by decide

/-- Every status bit but bit 3: not ready, so nothing at all. -/
theorem test_sample_not_ready :
    nextOf (exec (.sample 0xF7 exampleBurst) (configuredAs .highRes12Bit .physicalUnit)) =
      some (configuredAs .highRes12Bit .physicalUnit) := by decide

/-! ## The ports -/

/-- `.word 0x1000000000000004` at `STATUS` 01 gives 11: `ERR_ILLEGAL`, not `ERR_RECFG` (95 section 2.2). -/
theorem test_step_illegal_word :
    (nextOf (step (hostWill [.command 0x1000000000000004] (configuredAs .normal8Bit .rawScaled)))).map statusPort =
      some 0x11 := by decide

/-- The third line of program P5 (95 section 3): reset clears `STATUS` and keeps the packet. -/
theorem test_step_reset :
    (nextOf (step (hostWill [.assertReset] (emit [0xA0] (configuredAs .highRes12Bit .physicalUnit))))).map
        (fun s => (statusPort s, s.emitted)) = some (0x00, [[0xA0]]) := by decide

theorem test_step_read_status :
    (nextOf (step (hostWill [.readStatus] (configuredAs .highRes12Bit .rawScaled)))).map (·.statusReads) =
      some [0x03] := by decide

theorem test_fetch_word_runs_first :
    (nextOf (step (State.reset.withFetchWord 64 0x2008300020001000))).map statusPort = some 0x20 := by decide

/-! ## The assembler: lines of 95 section 3 -/

theorem test_assemble_program_lines :
    assemble [['C', 'F', 'G', ' ', 'H', 'R', '1', '2', ',', ' ', 'P', 'H', 'Y', 'S'], ['S', 'K', 'I', 'P', ' ', ';', 'x'],
      ['.', 'w', 'o', 'r', 'd', ' ', '0', 'x', '3', '0'], [], ['N', 'O', 'P']] =
      some [0x1000000000000003, 0x2000000000000000, 0x30, 0x0] := by decide

theorem test_assemble_sample :
    readCommand ['S', 'A', 'M', 'P', 'L', 'E', '.', 'W', ' ', '0', 'x', '0', '8', ',', '0', 'x', '1', '0', '0', '0', ',',
      '8', '1', '9', '2', ',', '0', 'x', '3', '0', '0', '0'] = some (.sampleW 0x08 0x1000 0x2000 0x3000) ∧
    asmWord (.sampleW 0x08 0x1000 0x2000 0x3000) = 0x2008300020001000 := by decide

/-! ## The host's loop -/

/-- A cycle of R142: the word presented is the status byte and burst as read, and only then is the signal cleared. -/
theorem test_loop_presents_sample :
    loopRun ⟨false, .waitSignal⟩ [.timerExpiry, .turn ⟨none, none, none⟩, .turn ⟨some 0x08, none, none⟩,
      .turn ⟨none, some exampleBurst, none⟩, .timerExpiry, .turn ⟨none, none, none⟩] =
      (⟨false, .waitSignal⟩, [.command 0x2008300020001000]) := by decide

/-! ## Witnesses for the hypotheses of the statements -/

theorem witness_decode_ok : decode 0x2008300020001000 = .ok (.sample 0x08 exampleBurst) ∧
    decode 0x1000000000000003 = .ok (.cfg .highRes12Bit .physicalUnit) := by decide

/-- ReservedEncodingsRaiseIllegal: one word for each clause, the lowest and highest reserved opcode among them. -/
theorem witness_reserved_encodings :
    3 ≤ ((0x3000000000000000 : Word).extractLsb' 60 4).toNat ∧ 3 ≤ ((0xF000000000000000 : Word).extractLsb' 60 4).toNat ∧
    ((0x2108300020001000 : Word).extractLsb' 60 4).toNat ≤ 2 ∧ (0x2108300020001000 : Word).extractLsb' 56 4 ≠ 0 ∧
    (0x0000000000000001 : Word).extractLsb' 60 4 = 0 ∧ (0x0000000000000001 : Word).extractLsb' 0 56 ≠ 0 ∧
    (0x1000000000000004 : Word).extractLsb' 60 4 = 1 ∧ (0x1000000000000004 : Word).extractLsb' 2 54 ≠ 0 := by decide

/-- DecodingIsTotalAndUnambiguous: a word that matches a row of the table. -/
theorem witness_row_match : cfgRow ∈ opcodeTable ∧ rowMatches cfgRow 0x1000000000000003 = true := by decide

/-- ShiftedValueRoundsDown: both corner clauses at both ends of their ranges, and two low bytes that differ in discarded
bits only. -/
theorem witness_shift_corners :
    sext16 (assemble16 0xC0 0xFF) = -64 ∧ sext16 (assemble16 0xFF 0xFF) = -1 ∧ sext16 (assemble16 0x00 0x00) = 0 ∧
    sext16 (assemble16 0x3F 0x00) = 63 ∧ sext16 (assemble16 0x0F 0x00) = 15 ∧ shiftAmount .normal8Bit = 6 ∧
    shiftAmount .highRes12Bit = 4 ∧ (0x3F : Byte) >>> 6 = (0x00 : Byte) >>> 6 ∧
    (0x1F : Byte) >>> 4 = (0x10 : Byte) >>> 4 := by decide

/-- PhysicalPayload: an argument for each sign, and a multiple of 250. -/
theorem witness_physical_signs : (0 : Int) ≤ 0 ∧ (-1 : Int) < 0 ∧ (250 : Int) % 250 = 0 := by decide

/-- PacketLayouts: the values of an actual burst. -/
theorem witness_packet_layouts :
    ∃ (m : Mode) (raw : RawBurst) (v : Axis → BitVec 16) (q : Axis → BitVec 32),
      (∀ a, v a = BitVec.ofInt 16 (rawScaledValue (shiftedValue m (lsbOf raw a) (msbOf raw a)))) ∧
      (∀ a, q a = BitVec.ofInt 32 (physicalValue (shiftedValue m (lsbOf raw a) (msbOf raw a)))) :=
  ⟨.highRes12Bit, exampleBurst, _, _, fun _ => rfl, fun _ => rfl⟩

/-- NopCompletesAndDoesNothing, CfgConfiguresOncePerReset, SampleGatesDecodesAndEmits: words of their word clauses. -/
theorem witness_command_words :
    (0x0100000000000000 : Word).extractLsb' 60 4 = 0 ∧ (0x0100000000000000 : Word).extractLsb' 0 60 ≠ 0 ∧
    (0x1000000000000002 : Word).extractLsb' 60 4 = 1 ∧ (0x1000000000000002 : Word).extractLsb' 2 58 = 0 ∧
    (0x1800000000000000 : Word).extractLsb' 60 4 = 1 ∧ (0x1800000000000000 : Word).extractLsb' 2 58 ≠ 0 ∧
    (0x2008300020001000 : Word).extractLsb' 60 4 = 2 ∧ (0x2008300020001000 : Word).extractLsb' 56 4 = 0 ∧
    (0x2108300020001000 : Word).extractLsb' 60 4 = 2 ∧ (0x2108300020001000 : Word).extractLsb' 56 4 ≠ 0 := by decide

/-- A state for each of the hypotheses on `CFG_VALID`, and a status byte for each value of bit 3; used by the statements on
`CFG`, `SAMPLE`, the gate, R26, R130, R132 and the frames. -/
theorem witness_configured_and_ready :
    State.reset.cfgValid = false ∧ (configuredAs .highRes12Bit .physicalUnit).cfgValid = true ∧
    (configuredAs .normal8Bit .rawScaled).cfgValid = true ∧ (0x08 : Byte).getLsbD 3 = true ∧
    (0xF7 : Byte).getLsbD 3 = false ∧ (0x08 : Byte).getLsbD 3 = (0xFF : Byte).getLsbD 3 ∧ noError State.reset = true := by
  decide

/-- DataReadyGate: a `SAMPLE` that changes the output. -/
theorem witness_sample_emits :
    ∃ t, exec (.sample 0x08 exampleBurst) (configuredAs .normal8Bit .rawScaled) = .next t ∧
      t.emitted ≠ (configuredAs .normal8Bit .rawScaled).emitted := ⟨_, rfl, by decide⟩

/-- ErrorConditionsAndCauses, OneErrorInOrder: from clear flags, a word for each of the three errors. -/
theorem witness_each_error :
    (∃ t, acceptWord 0x3000000000000000 State.reset = .next t ∧ t.errIllegal = true ∧ noError t = false) ∧
    (∃ t, acceptWord 0x2000000000000000 State.reset = .next t ∧ t.errNocfg = true ∧ noError t = false) ∧
    (∃ t, acceptWord 0x1000000000000000 (configuredAs .normal8Bit .rawScaled) = .next t ∧ t.errRecfg = true ∧
      noError t = false) := ⟨⟨_, rfl, rfl, rfl⟩, ⟨_, rfl, rfl, rfl⟩, ⟨_, rfl, rfl, rfl⟩⟩

/-- RaisingSetsOneFlagOnly: two flags that differ. -/
theorem witness_two_flags : ErrorFlag.recfg ≠ ErrorFlag.illegal := by decide

/-- ErrorFlagsAreStickyAndStopNothing, ResetLoadsEveryField: a set flag and a word accepted with it set. -/
theorem witness_set_flag :
    ∃ t, acceptWord 0x1000000000000003 (raiseError .nocfg State.reset) = .next t ∧
      errorFlag (raiseError .nocfg State.reset) .nocfg = true := ⟨_, rfl, rfl⟩

/-- ResetLoadsEveryField: an unconfigured state that is not the one right after reset, and words accepted there, one that is
no `CFG` and one that is. -/
theorem witness_unconfigured_after_an_error :
    (raiseError .nocfg State.reset).cfgValid = false ∧ (∀ s, resetFields s ≠ raiseError .nocfg State.reset) ∧
    (∃ t, acceptWord 0x2008300020001000 (raiseError .nocfg State.reset) = .next t) ∧
    (∀ m p, decode 0x2008300020001000 ≠ .ok (.cfg m p)) ∧
    (∃ t, acceptWord 0x1000000000000003 (raiseError .nocfg State.reset) = .next t ∧ t.cfgValid = true) :=
  ⟨rfl, fun _ h => Bool.noConfusion (congrArg State.errNocfg h), ⟨_, rfl⟩, by intro m p; cases m <;> cases p <;> decide,
    ⟨_, rfl, rfl⟩⟩

/-- OutputDependsOnWordAndConfigurationOnly: two machines that differ in flags and past, equally configured. -/
theorem witness_two_machines :
    ∃ s s' t t' : State, s ≠ s' ∧ acceptWord 0x2008300020001000 s = .next t ∧ acceptWord 0x2008300020001000 s' = .next t' ∧
      s'.cfgValid = s.cfgValid ∧ s'.mode = s.mode ∧ s'.profile = s.profile :=
  ⟨configuredAs .highRes12Bit .rawScaled, raiseError .recfg (emit [0xA0] (configuredAs .highRes12Bit .rawScaled)), _, _,
    by decide, rfl, rfl, rfl, rfl, rfl⟩

/-- CommandFrames: each command answers a next state. -/
theorem witness_commands_complete :
    (∃ t, exec .nop State.reset = .next t) ∧ (∃ t, exec (.cfg .normal8Bit .rawScaled) State.reset = .next t) ∧
    (∃ t, exec (.sample 0x08 exampleBurst) State.reset = .next t) := ⟨⟨_, rfl⟩, ⟨_, rfl⟩, ⟨_, rfl⟩⟩

/-- The statements on the step: a next event of each kind, a legal and an illegal word among them. -/
theorem witness_step_events :
    (hostWill [.command 0x1000000000000003] State.reset).hostInput = .command 0x1000000000000003 :: [] ∧
    (hostWill [.command 0x1000000000000003] State.reset).resetLine = false ∧
    decode 0x1000000000000003 = .ok (.cfg .highRes12Bit .physicalUnit) ∧ wordLegal 0x3000000000000000 = false ∧
    (driveReset true (hostWill [.command 0x0] State.reset)).resetLine = true ∧
    (hostWill [.assertReset] State.reset).hostInput = .assertReset :: [] ∧
    (hostWill [.releaseReset] State.reset).hostInput = .releaseReset :: [] ∧
    (hostWill [.readStatus] State.reset).hostInput = .readStatus :: [] ∧ State.reset.hostInput = [] := by decide

/-- EveryStepKeepsTheInvariant: a configured state with a packet out meets the invariant, and it steps. -/
theorem witness_invariant :
    Inv (hostWill [.command 0x2008300020001000]
      (emit [0xA0, 0xFC, 0xFF, 0x04, 0x00, 0x00, 0xF8, 0xC0] (configuredAs .normal8Bit .rawScaled))) ∧
    ∃ t, step (hostWill [.command 0x2008300020001000]
      (emit [0xA0, 0xFC, 0xFF, 0x04, 0x00, 0x00, 0xF8, 0xC0] (configuredAs .normal8Bit .rawScaled))) = .next t := by
  refine ⟨⟨by decide, by decide, ?_⟩, _, rfl⟩
  intro pk hpk
  obtain rfl : pk = [0xA0, 0xFC, 0xFF, 0x04, 0x00, 0x00, 0xF8, 0xC0] := by simpa [hostWill, configuredAs, emit, configure, State.reset] using hpk
  exact ⟨rfl, rfl, .inl rfl⟩

/-- PacketsAppearExactlyWhenDue, FieldsAreWrittenByTheirOwnCausesOnly: a step that changes the output, whose next event is
not the assertion of reset. -/
theorem witness_step_emits :
    ∃ t, step (hostWill [.command 0x2008300020001000] (configuredAs .normal8Bit .rawScaled)) = .next t ∧ t.emitted ≠ [] ∧
      (hostWill [.command 0x2008300020001000] (configuredAs .normal8Bit .rawScaled)).hostInput.head? ≠ some .assertReset :=
  ⟨_, rfl, by decide, by decide⟩

/-- FieldsAreWrittenByTheirOwnCausesOnly: a step that changes each of the fields. -/
theorem witness_step_writes_fields :
    (nextOf (step (hostWill [.command 0x1000000000000003] State.reset))).map (fun t => (t.cfgValid, t.mode, t.profile)) =
        some (true, .highRes12Bit, .physicalUnit) ∧
    (nextOf (step (hostWill [.command 0xF000000000000000] State.reset))).map (·.errIllegal) = some true ∧
    (nextOf (step (hostWill [.command 0x2000000000000000] State.reset))).map (·.errNocfg) = some true ∧
    (nextOf (step (hostWill [.command 0x1000000000000000] (configuredAs .normal8Bit .rawScaled)))).map (·.errRecfg) =
        some true := by decide

/-- SampleStreamEmitsTheReadySamplesInOrder: a stream of a sample that is ready and one that is not. -/
theorem witness_sample_stream :
    (configuredAs .normal8Bit .rawScaled).cfgValid = true ∧ (configuredAs .normal8Bit .rawScaled).resetLine = false ∧
    (hostWill [.command 0x2008300020001000, .command 0x2000300020001000, .readStatus]
        (configuredAs .normal8Bit .rawScaled)).hostInput =
      [((0x08 : Byte), exampleBurst), (0x00, exampleBurst)].map (fun x => PortEvent.command (encode (.sample x.1 x.2))) ++
        [.readStatus] := by decide

/-- DutifulHostNeverSeesAnError: a safe state whose host configures, samples, resets and configures again. -/
theorem witness_safe_state :
    safeState (hostWill [.command 0x1000000000000003, .command 0x2008300020001000, .assertReset, .command 0x3000000000000000,
      .releaseReset, .readStatus, .command 0x1000000000000000] State.reset) = true ∧
    safeState (hostWill [.command 0x2008300020001000] State.reset) = false := by decide

/-- WireCarriesASubsequence: a subsequence of what was emitted. -/
theorem witness_wire : List.Sublist [[(0xC0 : Byte)]] (emit [0xC0] (emit [0xA0] State.reset)).emitted := by decide

/-- The statements on the host's side: a loop in a cycle with the signal set, events without an expiry, failed reads, and a
status byte that is not ready. -/
theorem witness_host_side :
    (LoopState.mk true (.burstRead 0x08)).phase ≠ .waitSignal ∧ (LoopState.mk true (.burstRead 0x08)).signal = true ∧
    LoopEvent.timerExpiry ∉ [LoopEvent.turn ⟨some 0x08, none, none⟩] ∧
    (BusReading.mk none none none).status = none ∧ (BusReading.mk none none none).burst = none ∧
    (BusReading.mk (some 0xF7) none (some exampleBurst)).status = some 0xF7 ∧ (0xF7 : Byte).getLsbD 3 = false := by decide

end Sys2Proof.Tests
end

section
/-!
PROOFS. The state's own rules (10_state R26, R27; 60_exceptions R139), each read off the six effects of an accepted word.
-/
namespace Sys2Proof.Machine

@[simp] theorem errorFlag_configure (m : Mode) (p : Profile) (s : State) (f : ErrorFlag) :
    errorFlag (configure m p s) f = errorFlag s f := by cases f <;> rfl

@[simp] theorem errorFlag_emit (pk : Packet) (s : State) (f : ErrorFlag) :
    errorFlag (emit pk s) f = errorFlag s f := by cases f <;> rfl

@[simp] theorem errorFlag_resetFields (s : State) (f : ErrorFlag) : errorFlag (resetFields s) f = false := by
  cases f <;> rfl

/-- Raising any error keeps every flag that is already set. -/
theorem errorFlag_raiseError_of_set {s : State} {f : ErrorFlag} (g : ErrorFlag) (hf : errorFlag s f = true) :
    errorFlag (raiseError g s) f = true := by
  by_cases h : f = g
  · exact h ▸ errorFlag_raiseError_self f s
  · exact (errorFlag_raiseError_of_ne h s).trans hf

/-- The converse of `effect_of_acceptWord`: the conditions of an effect determine what the word answers. -/
theorem Effect.acceptWord_eq {w : Word} {s t : State} (he : Effect w s t) : acceptWord w s = .next t := by
  cases he with
  | nothing h =>
    rcases h with h | ⟨st, raw, h, hv, hd⟩
    · simp [acceptWord, h, exec, execNop]
    · simp [acceptWord, h, exec, execSample, hv, hd]
  | illegal r h => simp [acceptWord, h]
  | recfg m p h hv => simp [acceptWord, h, exec, execCfg, hv]
  | nocfg st raw h hv => simp [acceptWord, h, exec, execSample, hv]
  | configured m p h hv => simp [acceptWord, h, exec, execCfg, hv]
  | packet st raw h hv hd => simp [acceptWord, h, exec, execSample, hv, hd]

/-- No accepted word clears an error flag (R27). -/
theorem Effect.keeps_errorFlag {w : Word} {s t : State} {f : ErrorFlag} (he : Effect w s t)
    (hf : errorFlag s f = true) : errorFlag t f = true := by
  cases he with
  | nothing => exact hf
  | illegal | recfg | nocfg => exact errorFlag_raiseError_of_set _ hf
  | configured => exact (errorFlag_configure ..).trans hf
  | packet => exact (errorFlag_emit ..).trans hf

/-- No accepted word writes the configuration of a configured SDF (R26). -/
theorem Effect.keeps_configuration {w : Word} {s t : State} (he : Effect w s t) (hc : s.cfgValid = true) :
    t.cfgValid = true ∧ t.mode = s.mode ∧ t.profile = s.profile := by
  cases he with
  | nothing | illegal | recfg | nocfg | packet => exact ⟨hc, rfl, rfl⟩
  | configured m p h hv => simp [hc] at hv

/-- No accepted word emits a packet before configuration (R26). -/
theorem Effect.emitted_of_unconfigured {w : Word} {s t : State} (he : Effect w s t) (hc : s.cfgValid = false) :
    t.emitted = s.emitted := by
  cases he with
  | nothing | illegal | recfg | nocfg | configured => rfl
  | packet st raw h hv => simp [hc] at hv

/-- At an equally configured state, whatever its flags and its past, the word has the same kind of effect: equal
configurations after it, and the same packets appended. -/
theorem Effect.of_same_configuration {w : Word} {s s' t : State} (he : Effect w s t)
    (hc : s'.cfgValid = s.cfgValid) (hm : s'.mode = s.mode) (hp : s'.profile = s.profile) :
    ∃ t', Effect w s' t' ∧ t'.cfgValid = t.cfgValid ∧ t'.mode = t.mode ∧ t'.profile = t.profile ∧
      ∃ ps, t.emitted = s.emitted ++ ps ∧ t'.emitted = s'.emitted ++ ps := by
  cases he with
  | nothing h => exact ⟨_, .nothing (hc ▸ h), hc, hm, hp, [], by simp⟩
  | illegal r h => exact ⟨_, .illegal r h, hc, hm, hp, [], by simp⟩
  | recfg m p h hv => exact ⟨_, .recfg m p h (hc.trans hv), hc, hm, hp, [], by simp⟩
  | nocfg st raw h hv => exact ⟨_, .nocfg st raw h (hc.trans hv), hc, hm, hp, [], by simp⟩
  | configured m p h hv => exact ⟨_, .configured m p h (hc.trans hv), rfl, rfl, rfl, [], by simp⟩
  | packet st raw h hv hd =>
    exact ⟨_, .packet st raw h (hc.trans hv) hd, hc, hm, hp, [frame s.mode s.profile raw], by simp [hm, hp]⟩

/-- Before configuration the values in `MODE` and `PROFILE` are idle: the word has the same effect on every other field
whatever they are, and a `CFG` overwrites them. -/
theorem Effect.of_unconfigured {w : Word} {s t : State} (he : Effect w s t) (hc : s.cfgValid = false) (m : Mode)
    (p : Profile) :
    ∃ t', Effect w { s with mode := m, profile := p } t' ∧
      t'.cfgValid = t.cfgValid ∧ t'.errIllegal = t.errIllegal ∧ t'.errNocfg = t.errNocfg ∧
      t'.errRecfg = t.errRecfg ∧ t'.emitted = t.emitted ∧
      (t.cfgValid = true → t'.mode = t.mode ∧ t'.profile = t.profile) := by
  cases he with
  | nothing h => exact ⟨_, .nothing h, by simp [hc]⟩
  | illegal r h => exact ⟨_, .illegal r h, by simp [hc]⟩
  | nocfg st raw h hv => exact ⟨_, .nocfg st raw h hv, by simp [hc]⟩
  | configured m' p' h hv => exact ⟨_, .configured m' p' h hv, by simp⟩
  | recfg _ _ _ hv | packet _ _ _ hv => simp [hc] at hv

/-- Settles O28: every effect keeps set flags, and a word's effect on configuration and output is that at any equally
configured state. -/
theorem errorFlagsAreStickyAndStopNothing : Obligations.ErrorFlagsAreStickyAndStopNothing := by
  refine ⟨fun w s t f h => (effect_of_acceptWord h).keeps_errorFlag, errorFlag_resetFields, fun w s a b c => ?_⟩
  obtain ⟨t, ht, he⟩ := acceptWord_effect w s
  obtain ⟨t', he', hc, hm, hp, ps, hps, hps'⟩ :=
    he.of_same_configuration (s' := { s with errIllegal := a, errNocfg := b, errRecfg := c }) rfl rfl rfl
  exact ⟨t, t', ht, he'.acceptWord_eq, hc, hm, hp, hps'.trans hps.symm⟩

/-- Settles O29: the effect that configures and the effect that emits exclude each other on `CFG_VALID`, and no other effect
reads `MODE` or `PROFILE`. -/
theorem configurationGatesTheDatapath : Obligations.ConfigurationGatesTheDatapath := by
  refine ⟨fun w s t h => (effect_of_acceptWord h).keeps_configuration,
    fun w s t h => (effect_of_acceptWord h).emitted_of_unconfigured, fun w s m p hc => ?_⟩
  obtain ⟨t, ht, he⟩ := acceptWord_effect w s
  obtain ⟨t', he', hrest⟩ := he.of_unconfigured hc m p
  exact ⟨t, t', ht, he'.acceptWord_eq, hrest⟩

end Sys2Proof.Machine
end

section
/-!
PROOFS. The bytes of a packet (20_memory R43): each byte of a payload is the value divided by a power of two, modulo 256.
-/
namespace Sys2Proof.Machine

/-- A field of `n` bits from bit `i` on, inside the low `w` bits, is not changed by truncation to those `w` bits. -/
theorem emod_two_pow_ediv_emod (x : Int) {w i n : Nat} (h : i + n ≤ w) :
    x % 2 ^ w / 2 ^ i % 2 ^ n = x / 2 ^ i % 2 ^ n := by
  obtain ⟨k, rfl⟩ := Nat.exists_eq_add_of_le h
  have hx : x / 2 ^ i = x % 2 ^ (i + n + k) / 2 ^ i + 2 ^ n * (2 ^ k * (x / 2 ^ (i + n + k))) := by
    rw [← Int.add_mul_ediv_left _ _ (by positivity)]
    congr 1
    calc x = x % 2 ^ (i + n + k) + 2 ^ (i + n + k) * (x / 2 ^ (i + n + k)) := (Int.emod_add_mul_ediv ..).symm
      _ = _ := by ring
  rw [hx, Int.add_mul_emod_self_left]

/-- A field of a two's-complement pattern holds the quotient of the value, whatever the sign of the value. -/
theorem extractLsb'_ofInt (x : Int) {w i n : Nat} (h : i + n ≤ w) :
    (BitVec.ofInt w x).extractLsb' i n = BitVec.ofInt n (x / 2 ^ i) := by
  apply BitVec.eq_of_toNat_eq
  have hw : 0 ≤ x % 2 ^ w := Int.emod_nonneg _ (by positivity)
  have hn : 0 ≤ x / 2 ^ i % 2 ^ n := Int.emod_nonneg _ (by positivity)
  zify
  simp [Nat.shiftRight_eq_div_pow, hw, hn, emod_two_pow_ediv_emod x h]

/-- `le_bytes` of `n` bytes (R9, R43): byte `k` is the value divided by `2 ^ (8 k)`, modulo 256. -/
theorem leBytes_eq_map_ofInt (n : Nat) (x : Int) :
    leBytes n x = (List.range n).map fun k => BitVec.ofInt 8 (x / 2 ^ (8 * k)) := by
  refine List.map_congr_left fun k hk => extractLsb'_ofInt x ?_
  have := List.mem_range.mp hk
  omega

/-- Settles O10: both widths are cases of `leBytes_eq_map_ofInt`, and `frame_eq` lists the axes. -/
theorem payloadIsLittleEndian : Obligations.PayloadIsLittleEndian := by
  refine ⟨fun v => ?_, fun v => ?_, fun m p raw => ?_⟩
  · simp [leBytes_eq_map_ofInt, List.range_succ]
  · simp [leBytes_eq_map_ofInt, List.range_succ]
  · simp [frame_eq, header, footer]

end Sys2Proof.Machine
end

section
/-!
PROOFS. The decoder and the encoder are inverse to each other (30_encoding R60 to R64, R66, R67): when each command is
the answer, the fields of a `CFG` and a `SAMPLE` word read back, and why a word that decodes has no reserved encoding.
-/
namespace Sys2Proof

/-- Every row of the table fixes all of `OPC` and `RSV`, so a match fixes the word's top byte. -/
theorem topByte_of_rowMatches {r : OpcodeRow} (hr : r ∈ opcodeTable) {w : Word} (h : rowMatches r w = true) :
    w.extractLsb' 56 8 = r.pattern.extractLsb' 56 8 := by
  have hmask : r.mask.extractLsb' 56 8 = BitVec.allOnes 8 := by
    simp only [opcodeTable, List.mem_cons, List.not_mem_nil, or_false] at hr
    rcases hr with rfl | rfl | rfl <;> decide
  rw [← (rowMatches_iff r w).mp h, BitVec.extractLsb'_and, hmask, BitVec.and_allOnes]

/-- Rows whose patterns differ in the top byte do not match the same word. -/
theorem rowMatches_eq_false_of_topByte_ne {r r' : OpcodeRow} (hr : r ∈ opcodeTable) (hr' : r' ∈ opcodeTable)
    (hne : r.pattern.extractLsb' 56 8 ≠ r'.pattern.extractLsb' 56 8) {w : Word} (h : rowMatches r w = true) :
    rowMatches r' w = false :=
  Bool.eq_false_iff.mpr fun h' => hne ((topByte_of_rowMatches hr h).symm.trans (topByte_of_rowMatches hr' h'))

theorem decode_of_rowMatches_nop {w : Word} (h : rowMatches nopRow w = true) : decode w = .ok .nop := by
  simp [decode, h]

theorem decode_of_rowMatches_cfg {w : Word} (h : rowMatches cfgRow w = true) :
    decode w = .ok (.cfg (modeOfBit (w.getLsbD 0)) (profileOfBit (w.getLsbD 1))) := by
  have hnop := rowMatches_eq_false_of_topByte_ne (r' := nopRow) (by decide) (by decide) (by decide) h
  simp [decode, h, hnop]

theorem decode_of_rowMatches_sample {w : Word} (h : rowMatches sampleRow w = true) :
    decode w = .ok (.sample (stField w) (rawOfWord w)) := by
  have hnop := rowMatches_eq_false_of_topByte_ne (r' := nopRow) (by decide) (by decide) (by decide) h
  have hcfg := rowMatches_eq_false_of_topByte_ne (r' := cfgRow) (by decide) (by decide) (by decide) h
  simp [decode, h, hnop, hcfg]

/-- A word decodes to `NOP` exactly when it is 0 (R62). -/
theorem decode_eq_nop_iff (w : Word) : decode w = .ok .nop ↔ w = 0 := by
  refine ⟨fun hd => ?_, fun h => decode_of_rowMatches_nop ((rowMatches_nop_iff w).mpr h)⟩
  rcases decode_cases w with ⟨h, -⟩ | ⟨-, he⟩ | ⟨-, he⟩ | ⟨-, -, -, he⟩
  · exact (rowMatches_nop_iff w).mp h
  all_goals simp [he] at hd

/-- A word decodes to `CFG m, p` exactly when it matches the row and has `m` in bit 0 and `p` in bit 1 (R63). -/
theorem decode_eq_cfg_iff (w : Word) (m : Mode) (p : Profile) :
    decode w = .ok (.cfg m p) ↔
      rowMatches cfgRow w = true ∧ modeOfBit (w.getLsbD 0) = m ∧ profileOfBit (w.getLsbD 1) = p := by
  refine ⟨fun hd => ?_, ?_⟩
  · rcases decode_cases w with ⟨-, he⟩ | ⟨h, he⟩ | ⟨-, he⟩ | ⟨-, -, -, he⟩
    case inr.inl => simpa [h] using he.symm.trans hd
    all_goals simp [he] at hd
  · rintro ⟨h, rfl, rfl⟩
    exact decode_of_rowMatches_cfg h

/-- A word decodes to `SAMPLE st, raw` exactly when it matches the row and has `st` and `raw` in their fields (R64). -/
theorem decode_eq_sample_iff (w : Word) (st : Byte) (raw : RawBurst) :
    decode w = .ok (.sample st raw) ↔ rowMatches sampleRow w = true ∧ stField w = st ∧ rawOfWord w = raw := by
  refine ⟨fun hd => ?_, ?_⟩
  · rcases decode_cases w with ⟨-, he⟩ | ⟨-, he⟩ | ⟨h, he⟩ | ⟨-, -, -, he⟩
    case inr.inr.inl => simpa [h] using he.symm.trans hd
    all_goals simp [he] at hd
  · rintro ⟨h, rfl, rfl⟩
    exact decode_of_rowMatches_sample h

@[simp] theorem modeOfBit_eq_highRes12Bit_iff (b : Bool) : modeOfBit b = .highRes12Bit ↔ b = true := by
  cases b <;> decide

@[simp] theorem profileOfBit_eq_physicalUnit_iff (b : Bool) : profileOfBit b = .physicalUnit ↔ b = true := by
  cases b <;> decide

theorem getLsbD_zero_encode_cfg (m : Mode) (p : Profile) : (encode (.cfg m p)).getLsbD 0 = modeBit m := by
  rw [encode, BitVec.getLsbD_append]
  simp

theorem getLsbD_one_encode_cfg (m : Mode) (p : Profile) : (encode (.cfg m p)).getLsbD 1 = profileBit p := by
  rw [encode, BitVec.getLsbD_append, BitVec.getLsbD_append]
  simp

@[simp] theorem stField_encode_sample (st : Byte) (raw : RawBurst) : stField (encode (.sample st raw)) = st := by
  rw [stField, encode, BitVec.extractLsb'_append_eq_of_le (by decide), BitVec.extractLsb'_append_eq_right]

/-- A burst byte of a `SAMPLE` word is a byte of the word's low 48 bits. -/
theorem rawByte_encode_sample (st : Byte) (raw : RawBurst) {k : Nat} (hk : k < 6) :
    rawByte (encode (.sample st raw)) k = (rawBits raw).extractLsb' (8 * k) 8 := by
  rw [rawByte, encode, BitVec.extractLsb'_append_eq_of_add_le (by omega)]

/-- The 48 bits of a burst hold its six bytes, `RAW[0]` at the bottom (R45). -/
theorem extractLsb'_rawBits (raw : RawBurst) :
    (rawBits raw).extractLsb' 0 8 = raw.xLsb ∧ (rawBits raw).extractLsb' 8 8 = raw.xMsb ∧
    (rawBits raw).extractLsb' 16 8 = raw.yLsb ∧ (rawBits raw).extractLsb' 24 8 = raw.yMsb ∧
    (rawBits raw).extractLsb' 32 8 = raw.zLsb ∧ (rawBits raw).extractLsb' 40 8 = raw.zMsb := by
  unfold rawBits
  refine ⟨?_, ?_, ?_, ?_, ?_, ?top⟩
  case top =>
    iterate 5 rw [BitVec.extractLsb'_append_eq_of_le (by decide)]
    exact BitVec.extractLsb'_eq_self
  all_goals
    repeat rw [BitVec.extractLsb'_append_eq_of_le (by decide)]
    exact BitVec.extractLsb'_append_eq_right

@[simp] theorem rawOfWord_encode_sample (st : Byte) (raw : RawBurst) : rawOfWord (encode (.sample st raw)) = raw := by
  simp [rawOfWord, rawByte_encode_sample, extractLsb'_rawBits]

theorem decode_encode (i : Instr) : decode (encode i) = .ok i := by
  cases i with
  | nop => exact decode_of_rowMatches_nop Laws.EncodesItsRow.nop.1
  | cfg m p =>
    obtain ⟨hrow, -⟩ := Laws.EncodesItsRow.cfg m p
    exact (decode_eq_cfg_iff ..).mpr ⟨hrow, by rw [getLsbD_zero_encode_cfg, modeOfBit_modeBit],
      by rw [getLsbD_one_encode_cfg, profileOfBit_profileBit]⟩
  | sample st raw =>
    obtain ⟨hrow, -⟩ := Laws.EncodesItsRow.sample st raw
    exact (decode_eq_sample_iff ..).mpr ⟨hrow, stField_encode_sample .., rawOfWord_encode_sample ..⟩

/-- One bit of a word, as the encoder lays it out. -/
theorem ofBool_getLsbD (w : Word) (i : Nat) : BitVec.ofBool (w.getLsbD i) = w.extractLsb' i 1 := by
  apply BitVec.eq_of_getLsbD_eq
  intro j hj
  obtain rfl : j = 0 := by omega
  simp

/-- The six burst bytes read from a word lie in it as the encoder lays them out (R45). -/
theorem rawBits_rawOfWord (w : Word) : rawBits (rawOfWord w) = w.extractLsb' 0 48 := by
  unfold rawBits rawOfWord rawByte
  iterate 5 rw [BitVec.extractLsb'_append_extractLsb'_eq_extractLsb' (by decide)]

/-- The constant fields of a `CFG` word are the 62 bits its row fixes, and the other two bits are the operands. -/
theorem encode_cfg_of_rowMatches {w : Word} (h : rowMatches cfgRow w = true) :
    encode (.cfg (modeOfBit (w.getLsbD 0)) (profileOfBit (w.getLsbD 1))) = w := by
  have htop : (0x1#4 ++ 0x0#4 ++ 0#54 : BitVec 62) = w.extractLsb' 2 62 := ((rowMatches_cfg_iff w).mp h).symm
  rw [encode, modeBit_modeOfBit, profileBit_profileOfBit, ofBool_getLsbD, ofBool_getLsbD, htop,
    BitVec.extractLsb'_append_extractLsb'_eq_extractLsb' (by decide),
    BitVec.extractLsb'_append_extractLsb'_eq_extractLsb' (by decide)]
  exact BitVec.extractLsb'_eq_self

/-- The constant fields of a `SAMPLE` word are the top byte its row fixes, and the other bits are the operands. -/
theorem encode_sample_of_rowMatches {w : Word} (h : rowMatches sampleRow w = true) :
    encode (.sample (stField w) (rawOfWord w)) = w := by
  have htop : (0x2#4 ++ 0x0#4 : BitVec 8) = w.extractLsb' 56 8 := ((rowMatches_sample_iff w).mp h).symm
  rw [encode, rawBits_rawOfWord, stField, htop,
    BitVec.extractLsb'_append_extractLsb'_eq_extractLsb' (by decide),
    BitVec.extractLsb'_append_extractLsb'_eq_extractLsb' (by decide)]
  exact BitVec.extractLsb'_eq_self

theorem encode_of_decode {w : Word} {i : Instr} (hd : decode w = .ok i) : encode i = w := by
  cases i with
  | nop => exact ((decode_eq_nop_iff w).mp hd).symm
  | cfg m p =>
    obtain ⟨h, rfl, rfl⟩ := (decode_eq_cfg_iff w m p).mp hd
    exact encode_cfg_of_rowMatches h
  | sample st raw =>
    obtain ⟨h, rfl, rfl⟩ := (decode_eq_sample_iff w st raw).mp hd
    exact encode_sample_of_rowMatches h

/-- No encoding is reserved. -/
theorem wordLegal_encode (i : Instr) : wordLegal (encode i) = true := by
  cases i with
  | nop => exact Laws.EncodesItsRow.nop.2
  | cfg m p => exact (Laws.EncodesItsRow.cfg m p).2
  | sample st raw => exact (Laws.EncodesItsRow.sample st raw).2

/-- A word that decodes is the encoding of a command, and so not reserved. -/
theorem wordLegal_of_decode {w : Word} {i : Instr} (hd : decode w = .ok i) : wordLegal w = true :=
  encode_of_decode hd ▸ wordLegal_encode i

theorem exists_decode_eq_error {w : Word} (h : wordLegal w = false) : ∃ r, decode w = .error r := by
  cases hd : decode w with
  | error r => exact ⟨r, rfl⟩
  | ok i => simp [wordLegal_of_decode hd] at h

theorem opcodeDefined_eq_false_iff (w : Word) : opcodeDefined w = false ↔ 3 ≤ (opcField w).toNat := by
  simp only [opcodeDefined, BitVec.ofNat_eq_ofNat, Bool.or_eq_false_iff, beq_eq_false_iff_ne, ne_eq,
    ← BitVec.toNat_inj, BitVec.toNat_ofNat, Nat.reducePow, Nat.zero_mod, Nat.one_mod, Nat.reduceMod]
  omega

/-- A word is illegal exactly when one of its four checks fails. -/
theorem wordLegal_eq_false_iff (w : Word) :
    wordLegal w = false ↔
      opcodeDefined w = false ∨ rsvClear w = false ∨ nopPayloadClear w = false ∨ cfgPayloadClear w = false := by
  simp only [wordLegal, Bool.and_eq_false_iff, or_assoc]

end Sys2Proof
end

section
/-!
PROOFS. What the encoding section of the spec says of every word and every command (30_encoding R62 to R64, R66, R67).
-/
namespace Sys2Proof.Machine

/-- A word with a reserved encoding sets `ERR_ILLEGAL` and does nothing else (R66, R67). -/
theorem acceptWord_of_not_wordLegal {w : Word} (h : wordLegal w = false) (s : State) :
    acceptWord w s = .next (raiseError .illegal s) := by
  obtain ⟨r, hr⟩ := exists_decode_eq_error h
  exact (Effect.illegal r hr).acceptWord_eq

/-- Settles O1, command by command: the encoding matches the command's row and its fields read back. -/
theorem decodeOfEncodeIsTheCommand : Obligations.DecodeOfEncodeIsTheCommand := decode_encode

/-- Settles O2, command by command: the bits that the row fixes and the operand fields make up the whole word. -/
theorem encodeOfDecodeIsTheWord : Obligations.EncodeOfDecodeIsTheWord := fun _ _ => encode_of_decode

/-- Settles O3: each reserved encoding makes the word illegal, and every word that decodes is legal. -/
theorem reservedEncodingsRaiseIllegal : Obligations.ReservedEncodingsRaiseIllegal := by
  intro w s hres
  have hillegal : wordLegal w = false := by
    rw [wordLegal_eq_false_iff]
    rcases hres with hopc | ⟨-, hrsv⟩ | ⟨hopc, hpay⟩ | ⟨hopc, hpay⟩
    · exact .inl (by rw [opcodeDefined_eq_false_iff, opcField]; exact hopc)
    · exact .inr (.inl (by simpa [rsvClear, rsvField] using hrsv))
    · exact .inr (.inr (.inl (by simpa [nopPayloadClear, opcField, payField, hopc] using hpay)))
    · exact .inr (.inr (.inr (by simpa [cfgPayloadClear, opcField, hopc] using hpay)))
  exact ⟨exists_decode_eq_error hillegal, acceptWord_of_not_wordLegal hillegal s⟩

/-- Settles O4: the three `decode_eq_…_iff` lemmas clause by clause, and O1 for the values that occur. -/
theorem legalWordsDecodeByLayout : Obligations.LegalWordsDecodeByLayout := by
  refine ⟨decode_eq_nop_iff, fun w => ?_, fun w m p hd => ?_, by decide, fun w => ?_, fun w st raw hd => ?_,
    fun st raw => ⟨_, decode_encode (.sample st raw)⟩⟩
  · simp [decode_eq_cfg_iff, rowMatches_iff, cfgRow]
  · obtain ⟨-, rfl, rfl⟩ := (decode_eq_cfg_iff w m p).mp hd
    simp
  · simp [decode_eq_sample_iff, rowMatches_iff, sampleRow]
  · obtain ⟨-, rfl, rfl⟩ := (decode_eq_sample_iff w st raw).mp hd
    simp [stField, rawOfWord, rawByte]

end Sys2Proof.Machine
end

section
/-!
PROOFS. The rows of the opcode table by their fields (30_encoding R61, R63, R67): the opcode singles out one row, so a word
that does not match the row of its opcode is illegal.
-/
namespace Sys2Proof

/-- A field inside a field. -/
theorem extractLsb'_extractLsb'_of_add_le {w : Nat} (x : BitVec w) {j l i n : Nat} (h : i + n ≤ l) :
    (x.extractLsb' j l).extractLsb' i n = x.extractLsb' (j + i) n := by
  ext k hk
  simp [show i + k < l by omega, Nat.add_assoc]

/-- The row's match fixes `OPC` (R61), which is the upper half of the top byte. -/
theorem opcField_of_rowMatches {r : OpcodeRow} (hr : r ∈ opcodeTable) {w : Word} (h : rowMatches r w = true) :
    opcField w = opcField r.pattern := by
  have hopc (v : Word) : opcField v = (v.extractLsb' 56 8).extractLsb' 4 4 := by
    rw [opcField, extractLsb'_extractLsb'_of_add_le v (by decide)]
  rw [hopc, hopc, topByte_of_rowMatches hr h]

theorem opcField_injective_on_opcodeTable :
    ∀ r ∈ opcodeTable, ∀ r' ∈ opcodeTable, opcField r.pattern = opcField r'.pattern → r = r' := by decide

theorem exists_rowMatches_of_decode {w : Word} {i : Instr} (hd : decode w = .ok i) :
    ∃ r ∈ opcodeTable, rowMatches r w = true := by
  rcases decode_cases w with ⟨h, -⟩ | ⟨h, -⟩ | ⟨h, -⟩ | ⟨-, -, -, he⟩
  · exact ⟨nopRow, by decide, h⟩
  · exact ⟨cfgRow, by decide, h⟩
  · exact ⟨sampleRow, by decide, h⟩
  · simp [he] at hd

/-- A word with the opcode of a row it does not match has a reserved bit set (R67): no other row can match it. -/
theorem exists_decode_eq_error_of_not_rowMatches {r : OpcodeRow} (hr : r ∈ opcodeTable) {w : Word}
    (hopc : opcField w = opcField r.pattern) (hno : ¬ rowMatches r w = true) : ∃ e, decode w = .error e := by
  cases hd : decode w with
  | error e => exact ⟨e, rfl⟩
  | ok i =>
    obtain ⟨r', hr', h⟩ := exists_rowMatches_of_decode hd
    have heq : r = r' :=
      opcField_injective_on_opcodeTable r hr r' hr' (hopc.symm.trans (opcField_of_rowMatches hr' h))
    exact absurd (heq ▸ h) hno

/-- The constant fields of a `CFG` word (R63). -/
theorem rowMatches_cfg_iff_fields (w : Word) :
    rowMatches cfgRow w = true ↔ w.extractLsb' 60 4 = 1 ∧ w.extractLsb' 2 58 = 0 := by
  rw [rowMatches_cfg_iff]
  constructor
  · intro h
    have hfield {i n : Nat} (hin : i + n ≤ 62) :
        w.extractLsb' (2 + i) n = (0x0400000000000000#62).extractLsb' i n := by
      rw [← h, extractLsb'_extractLsb'_of_add_le w hin]
    exact ⟨hfield (i := 58) (by decide), hfield (i := 0) (by decide)⟩
  · rintro ⟨hopc, hrest⟩
    calc w.extractLsb' 2 62 = w.extractLsb' 60 4 ++ w.extractLsb' 2 58 := by
          rw [BitVec.extractLsb'_append_extractLsb'_eq_extractLsb' (by decide)]
      _ = 0x0400000000000000#62 := by rw [hopc, hrest]; decide

theorem modeOfBit_eq_ite (b : Bool) : modeOfBit b = if b then .highRes12Bit else .normal8Bit := by
  cases b <;> rfl

theorem profileOfBit_eq_ite (b : Bool) : profileOfBit b = if b then .physicalUnit else .rawScaled := by
  cases b <;> rfl

end Sys2Proof
end

section
/-!
PROOFS. The configuration commands (40_configuration R80, R81), as commands and as accepted words.
-/
namespace Sys2Proof.Machine

/-- A malformed word of a defined opcode sets `ERR_ILLEGAL` and does nothing else (R67). -/
theorem acceptWord_of_not_rowMatches {r : OpcodeRow} (hr : r ∈ opcodeTable) {w : Word}
    (hopc : opcField w = opcField r.pattern) (hno : ¬ rowMatches r w = true) (s : State) :
    acceptWord w s = .next (raiseError .illegal s) := by
  obtain ⟨e, he⟩ := exists_decode_eq_error_of_not_rowMatches hr hopc hno
  exact (Effect.illegal e he).acceptWord_eq

theorem acceptWord_of_decode {w : Word} {i : Instr} (hd : decode w = .ok i) (s : State) :
    acceptWord w s = exec i s := by
  simp [acceptWord, hd]

theorem execCfg_of_unconfigured (m : Mode) (p : Profile) {s : State} (hc : s.cfgValid = false) :
    execCfg m p s = .next (configure m p s) := by
  simpa [hc] using execCfg_cases m p s

theorem execCfg_of_configured (m : Mode) (p : Profile) {s : State} (hc : s.cfgValid = true) :
    execCfg m p s = .next (raiseError .recfg s) := by
  simpa [hc] using execCfg_cases m p s

/-- Settles O19: the zero word is the only one that matches the row of `NOP`. -/
theorem nopCompletesAndDoesNothing : Obligations.NopCompletesAndDoesNothing := by
  refine ⟨fun s => rfl, fun s => ?_, fun w s hopc hrest => ?_⟩
  · exact acceptWord_of_decode ((decode_eq_nop_iff _).mpr rfl) s
  · have hno : ¬ rowMatches nopRow w = true := fun h => hrest (by rw [(rowMatches_nop_iff w).mp h]; decide)
    exact acceptWord_of_not_rowMatches (r := nopRow) (by decide) hopc hno s

/-- Settles O20: `execCfg` splits on `CFG_VALID` alone, and a word of opcode 1 matches the row of `CFG` exactly when its
bits 2 to 59 are 0. -/
theorem cfgConfiguresOncePerReset : Obligations.CfgConfiguresOncePerReset := by
  refine ⟨fun m p s => execCfg_of_unconfigured m p, fun m p s => execCfg_of_configured m p, fun w hopc hrest => ?_,
    fun w s hopc hrest => ?_, ?_⟩
  · rw [decode_of_rowMatches_cfg ((rowMatches_cfg_iff_fields w).mpr ⟨hopc, hrest⟩), modeOfBit_eq_ite,
      profileOfBit_eq_ite]
  · have hno : ¬ rowMatches cfgRow w = true := fun h => hrest ((rowMatches_cfg_iff_fields w).mp h).2
    exact acceptWord_of_not_rowMatches (r := cfgRow) (by decide) hopc hno s
  · exact ⟨_, _, rfl, by decide, rfl, by decide⟩

end Sys2Proof.Machine
end

section
/-!
PROOFS. One axis of the decode datapath (41_decoder R91, R92, R94, R96, R97): the pair is `MSB ++ LSB`, so shifting its
value right leaves the low byte's shifted part below the whole high byte, and each profile's payload spells out the
scaled value.
-/
namespace Sys2Proof.Machine

/-- `U = {MSB, LSB}` (R91). -/
theorem assemble16_eq_append (lsb msb : Byte) : assemble16 lsb msb = (msb ++ lsb : BitVec 16) := by
  rw [BitVec.append_def, BitVec.shiftLeftZeroExtend_eq, BitVec.setWidth'_eq, BitVec.or_comm]
  rfl

theorem assemble16_toNat (lsb msb : Byte) : (assemble16 lsb msb).toNat = 256 * msb.toNat + lsb.toNat := by
  rw [assemble16_eq_append, BitVec.toNat_append, ← Nat.shiftLeft_add_eq_or_of_lt lsb.isLt, Nat.shiftLeft_eq]
  omega

/-- Any 16-bit value is assembled from its own two bytes. -/
theorem assemble16_extractLsb' (u : Half) : assemble16 (u.extractLsb' 0 8) (u.extractLsb' 8 8) = u := by
  rw [assemble16_eq_append, BitVec.extractLsb'_append_extractLsb'_eq_extractLsb' (by decide)]
  exact BitVec.extractLsb'_eq_self

theorem sext16_mem_range (u : Half) : -32768 ≤ sext16 u ∧ sext16 u ≤ 32767 := by
  rw [sext16_eq_toInt]
  have hlow := u.le_toInt
  have hhigh := u.toInt_lt
  omega

/-- The sign interpretation agrees with the unsigned value modulo `2 ^ 16` (R92). -/
theorem sext16_emod (u : Half) : sext16 u % 65536 = u.toNat := by
  have hu : u.toNat < 65536 := u.isLt
  unfold sext16
  split <;> omega

/-- The sign of a pair is that of its high byte. -/
theorem sext16_assemble16 (lsb msb : Byte) : sext16 (assemble16 lsb msb) = 256 * msb.toInt + lsb.toNat := by
  rw [sext16_eq_toInt, assemble16_eq_append]
  exact BitVec.toInt_append

/-- Settles O8: the pair's value is that of `MSB ++ LSB`, and a 16-bit value is the pair of its own bytes. -/
theorem assemblyAndSign : Obligations.AssemblyAndSign :=
  ⟨assemble16_toNat, fun u => ⟨_, _, assemble16_extractLsb' u⟩,
    fun u => ⟨(sext16_mem_range u).1, (sext16_mem_range u).2, sext16_emod u⟩, by decide⟩

/-- R94: the shifted value is the floor of the quotient. -/
theorem shiftedValue_eq_ediv (m : Mode) (lsb msb : Byte) :
    shiftedValue m lsb msb = sext16 (assemble16 lsb msb) / 2 ^ shiftAmount m := asr_eq_ediv ..

/-- Only the bits of the low byte above the discarded ones enter the shifted value. -/
theorem shiftedValue_eq_of_bytes (m : Mode) (lsb msb : Byte) :
    shiftedValue m lsb msb = 2 ^ (8 - shiftAmount m) * msb.toInt + (lsb >>> shiftAmount m).toNat := by
  rw [shiftedValue_eq_ediv, sext16_assemble16, BitVec.toNat_ushiftRight, Nat.shiftRight_eq_div_pow]
  cases m <;> simp only [shiftAmount] <;> omega

theorem shiftedValue_eq_of_ushiftRight_eq {m : Mode} {lsb lsb' : Byte} (msb : Byte)
    (h : lsb >>> shiftAmount m = lsb' >>> shiftAmount m) : shiftedValue m lsb msb = shiftedValue m lsb' msb := by
  rw [shiftedValue_eq_of_bytes, shiftedValue_eq_of_bytes, h]

theorem axisPayload_eq_of_ushiftRight_eq {m : Mode} (p : Profile) {lsb lsb' : Byte} (msb : Byte)
    (h : lsb >>> shiftAmount m = lsb' >>> shiftAmount m) : axisPayload m p lsb msb = axisPayload m p lsb' msb := by
  rw [axisPayload, axisPayload, shiftedValue_eq_of_ushiftRight_eq msb h]

/-- Settles O9: floor bounds and corner cases are those of integer division by `2 ^ SHIFT`, and by
`shiftedValue_eq_of_bytes` the discarded bits do not enter. -/
theorem shiftedValueRoundsDown : Obligations.ShiftedValueRoundsDown := by
  refine ⟨fun m lsb msb => ?_, fun m p lsb lsb' msb h => ?_, rfl, rfl, by decide⟩
  · have hpos : (0 : Int) < 2 ^ shiftAmount m := by positivity
    rw [shiftedValue_eq_ediv]
    exact ⟨Int.ediv_mul_le _ hpos.ne', Int.lt_ediv_add_one_mul_self _ hpos,
      fun hneg hge => Int.ediv_eq_neg_one_of_neg_of_le hneg (Int.neg_le_of_neg_le hge),
      fun hnonneg hle => Int.ediv_eq_zero_of_lt hnonneg (Int.lt_of_le_sub_one hle)⟩
  · exact ⟨shiftedValue_eq_of_ushiftRight_eq msb h, axisPayload_eq_of_ushiftRight_eq p msb h⟩

/-- A right shift by `n` leaves `16 - n` significant bits (R93, R94). -/
theorem shiftedValue_mem_range (m : Mode) (lsb msb : Byte) :
    -2 ^ (15 - shiftAmount m) ≤ shiftedValue m lsb msb ∧ shiftedValue m lsb msb < 2 ^ (15 - shiftAmount m) := by
  have hrange := sext16_mem_range (assemble16 lsb msb)
  rw [shiftedValue_eq_ediv]
  cases m <;> simp only [shiftAmount] <;> omega

theorem rawScaledValue_eq (s : Int) : rawScaledValue s = 4 * s := Int.mul_comm ..

/-- The 16-bit result of the raw-scaled profile never wraps (R96). -/
theorem toInt_ofInt_four_mul_shiftedValue (m : Mode) (lsb msb : Byte) :
    (BitVec.ofInt 16 (4 * shiftedValue m lsb msb)).toInt = 4 * shiftedValue m lsb msb := by
  have hbound : -2048 ≤ shiftedValue m lsb msb ∧ shiftedValue m lsb msb < 2048 := by
    have hrange := shiftedValue_mem_range m lsb msb
    cases m <;> simp only [shiftAmount] at hrange <;> omega
  exact BitVec.toInt_ofInt_eq_self (by decide) (by omega) (by omega)

/-- Settles O11: `4 S` has at most 14 bits, and the payload is `leBytes 2` of it. -/
theorem rawScaledPayload : Obligations.RawScaledPayload := by
  obtain ⟨-, hbytes, -⟩ := payloadIsLittleEndian
  refine ⟨fun m lsb msb => ⟨toInt_ofInt_four_mul_shiftedValue m lsb msb, ?_⟩, by decide⟩
  rw [← rawScaledValue_eq]
  exact hbytes _

theorem physicalValue_of_nonneg {s : Int} (hs : 0 ≤ s) : physicalValue s = s * 19612 / 1000 :=
  Int.tdiv_eq_ediv_of_nonneg (Int.mul_nonneg hs (by decide))

/-- Truncation toward zero is symmetric in the sign. -/
theorem physicalValue_neg (s : Int) : physicalValue (-s) = -physicalValue s := by
  rw [physicalValue, Int.neg_mul, Int.neg_tdiv, ← physicalValue]

theorem physicalValue_of_neg {s : Int} (hs : s < 0) : physicalValue s = -(-s * 19612 / 1000) := by
  rw [← physicalValue_of_nonneg (by omega), physicalValue_neg, Int.neg_neg]

/-- No truncation happens exactly at the multiples of 250: `1000 = 4 · 250`, `19612 = 4 · 4903`, and 4903 is prime to
250 (R97). -/
theorem physicalValue_mul_eq_iff (s : Int) : physicalValue s * 1000 = s * 19612 ↔ s % 250 = 0 := by
  rcases lt_or_ge s 0 with hs | hs
  · rw [physicalValue_of_neg hs]
    omega
  · rw [physicalValue_of_nonneg hs]
    omega

/-- Settles O12: truncation by sign, exactness by divisibility, and the payload is `leBytes 4` of the value. -/
theorem physicalPayload : Obligations.PhysicalPayload := by
  obtain ⟨hbytes, -, -⟩ := payloadIsLittleEndian
  exact ⟨fun _ => physicalValue_of_nonneg, fun _ => physicalValue_of_neg, physicalValue_mul_eq_iff,
    fun _ _ _ => hbytes _, by decide⟩

end Sys2Proof.Machine
end

section
/-!
PROOFS. The packetizer (42_packetizer R110, R111, R113, R115 to R117): the bytes of a packet, and a `SAMPLE` in each of its
three cases.
-/
namespace Sys2Proof.Machine

/-- The payload `V_a` of one axis: the two bytes of its 16-bit pattern (R110). -/
theorem axisPayload_rawScaled (m : Mode) (lsb msb : Byte) :
    axisPayload m .rawScaled lsb msb =
      [(BitVec.ofInt 16 (rawScaledValue (shiftedValue m lsb msb))).extractLsb' 0 8,
        (BitVec.ofInt 16 (rawScaledValue (shiftedValue m lsb msb))).extractLsb' 8 8] := leBytes_two _

/-- The payload `P_a` of one axis: the four bytes of its 32-bit pattern (R111). -/
theorem axisPayload_physicalUnit (m : Mode) (lsb msb : Byte) :
    axisPayload m .physicalUnit lsb msb =
      [(BitVec.ofInt 32 (physicalValue (shiftedValue m lsb msb))).extractLsb' 0 8,
        (BitVec.ofInt 32 (physicalValue (shiftedValue m lsb msb))).extractLsb' 8 8,
        (BitVec.ofInt 32 (physicalValue (shiftedValue m lsb msb))).extractLsb' 16 8,
        (BitVec.ofInt 32 (physicalValue (shiftedValue m lsb msb))).extractLsb' 24 8] := leBytes_four _

/-- Settles O17: `frame_eq` lists the three payloads, and each is the bytes of its axis's pattern. -/
theorem packetLayouts : Obligations.PacketLayouts := by
  intro m raw v q hv hq
  constructor
  · rw [frame_eq, hv, hv, hv]
    simp only [axisPayload_rawScaled]
    rfl
  · rw [frame_eq, hq, hq, hq]
    simp only [axisPayload_physicalUnit]
    rfl

/-- The length depends on the profile alone (R113). -/
@[simp] theorem frame_length (m : Mode) (p : Profile) (raw : RawBurst) : (frame m p raw).length = packetLength p := by
  simp only [frame_eq, packetLength, List.length_cons, List.length_append, List.length_nil, axisPayload_length]
  omega

theorem packetLength_eq_ite (p : Profile) : packetLength p = if p = .rawScaled then 8 else 14 := by
  cases p <;> rfl

/-- Settles O18: two bytes of framing and three payloads of 2 or 4 bytes. -/
theorem packetLengthByProfile : Obligations.PacketLengthByProfile :=
  fun m raw => ⟨frame_length m .rawScaled raw, frame_length m .physicalUnit raw⟩

theorem execSample_of_unconfigured (st : Byte) (raw : RawBurst) {s : State} (hc : s.cfgValid = false) :
    execSample st raw s = .next (raiseError .nocfg s) := by
  simpa [hc] using execSample_cases st raw s

theorem execSample_of_not_ready {st : Byte} (raw : RawBurst) {s : State} (hc : s.cfgValid = true)
    (hd : dataReady st = false) : execSample st raw s = .next s := by
  simpa [hc, hd] using execSample_cases st raw s

theorem execSample_of_ready {st : Byte} (raw : RawBurst) {s : State} (hc : s.cfgValid = true)
    (hd : dataReady st = true) : execSample st raw s = .next (emit (frame s.mode s.profile raw) s) := by
  simpa [hc, hd] using execSample_cases st raw s

/-- The status byte enters a `SAMPLE` through the data-ready gate alone (R116). -/
theorem execSample_eq_of_dataReady_eq {st st' : Byte} (h : dataReady st = dataReady st') (raw : RawBurst) (s : State) :
    execSample st raw s = execSample st' raw s := by
  rw [execSample, execSample, h]

/-- The burst of a `SAMPLE` that is not ready is not examined, configured or not (R115, R117). -/
theorem execSample_eq_of_not_ready {st : Byte} (hd : dataReady st = false) (raw raw' : RawBurst) (s : State) :
    execSample st raw s = execSample st raw' s := by
  cases hc : s.cfgValid with
  | false => rw [execSample_of_unconfigured st raw hc, execSample_of_unconfigured st raw' hc]
  | true => rw [execSample_of_not_ready raw hc hd, execSample_of_not_ready raw' hc hd]

/-- Only a ready `SAMPLE` reaches the output port (R115). -/
theorem dataReady_of_emitted_ne {st : Byte} {raw : RawBurst} {s t : State} (h : execSample st raw s = .next t)
    (hne : t.emitted ≠ s.emitted) : dataReady st = true := by
  rcases execSample_cases st raw s with ⟨-, he⟩ | ⟨-, -, he⟩ | ⟨-, hd, -⟩
  case inr.inr => exact hd
  all_goals
    cases he.symm.trans h
    exact absurd rfl hne

/-- Settles O23: bit 3 is the data-ready gate. -/
theorem otherStatusBitsAreIgnored : Obligations.OtherStatusBitsAreIgnored :=
  fun _ _ raw s h => execSample_eq_of_dataReady_eq h raw s

/-- Settles O22: of the three cases of a `SAMPLE`, only the ready one writes the output, and only it reads the burst. -/
theorem dataReadyGate : Obligations.DataReadyGate :=
  ⟨fun _ _ _ _ => dataReady_of_emitted_ne, fun _ raw _ => execSample_of_not_ready raw,
    fun _ raw raw' s hd => execSample_eq_of_not_ready hd raw raw' s⟩

/-- Concatenations of equal widths agree exactly when both parts do. -/
theorem append_eq_append_iff {n k : Nat} (x x' : BitVec n) (y y' : BitVec k) :
    x ++ y = x' ++ y' ↔ x = x' ∧ y = y' := by
  refine ⟨fun h => ⟨?_, ?_⟩, by rintro ⟨rfl, rfl⟩; rfl⟩
  · simpa only [BitVec.extractLsb'_append_eq_left] using congrArg (BitVec.extractLsb' k n) h
  · simpa only [BitVec.extractLsb'_append_eq_right] using congrArg (BitVec.extractLsb' 0 k) h

/-- The constant fields of a `SAMPLE` word (R64). -/
theorem rowMatches_sample_iff_fields (w : Word) :
    rowMatches sampleRow w = true ↔ w.extractLsb' 60 4 = 2 ∧ w.extractLsb' 56 4 = 0 := by
  have htop : w.extractLsb' 56 8 = w.extractLsb' 60 4 ++ w.extractLsb' 56 4 := by
    rw [BitVec.extractLsb'_append_extractLsb'_eq_extractLsb' (by decide)]
  have hconst : (0x20#8) = (2#4 ++ 0#4 : BitVec (4 + 4)) := rfl
  rw [rowMatches_sample_iff, htop, hconst]
  exact append_eq_append_iff ..

/-- Settles O21: `execSample` splits on `CFG_VALID`, then on the data-ready bit, and a word of opcode 2 matches the row of
`SAMPLE` exactly when its bits 56 to 59 are 0. -/
theorem sampleGatesDecodesAndEmits : Obligations.SampleGatesDecodesAndEmits := by
  refine ⟨fun st raw s => execSample_of_unconfigured st raw, fun st raw s => execSample_of_not_ready raw,
    fun st raw s hc hd => ⟨execSample_of_ready raw hc hd, ?_⟩, fun w hopc hrsv => ?_, fun w s hopc hrsv => ?_, ?_⟩
  · rw [frame_length, packetLength_eq_ite]
  · exact decode_of_rowMatches_sample ((rowMatches_sample_iff_fields w).mpr ⟨hopc, hrsv⟩)
  · have hno : ¬ rowMatches sampleRow w = true := fun h => hrsv ((rowMatches_sample_iff_fields w).mp h).2
    exact acceptWord_of_not_rowMatches (r := sampleRow) (by decide) hopc hno s
  · exact ⟨_, _, rfl, rfl, by decide⟩

end Sys2Proof.Machine
end

section
/-!
PROOFS. The words with no reserved encoding are the ones that decode (30_encoding R66, R67, R69).
-/
namespace Sys2Proof

theorem wordLegal_eq_true_iff (w : Word) :
    wordLegal w = true ↔
      opcodeDefined w = true ∧ rsvClear w = true ∧ nopPayloadClear w = true ∧ cfgPayloadClear w = true := by
  simp only [wordLegal, Bool.and_eq_true, and_assoc]

/-- The three fields of a word are the whole word (R60). -/
theorem append_fields (w : Word) : opcField w ++ rsvField w ++ payField w = w := by
  unfold opcField rsvField payField
  iterate 2 rw [BitVec.extractLsb'_append_extractLsb'_eq_extractLsb' (by decide)]
  exact BitVec.extractLsb'_eq_self

/-- A legal word matches the row of its opcode: its reserved fields are 0, so the row's constant fields are all there. -/
theorem exists_decode_eq_ok {w : Word} (h : wordLegal w = true) : ∃ i, decode w = .ok i := by
  obtain ⟨hopc, hrsv, hnop, hcfg⟩ := (wordLegal_eq_true_iff w).mp h
  simp only [opcodeDefined, Bool.or_eq_true, beq_iff_eq, or_assoc] at hopc
  replace hrsv : rsvField w = 0 := by simpa [rsvClear] using hrsv
  rcases hopc with h0 | h1 | h2
  · have hpay : payField w = 0 := by simpa [nopPayloadClear, h0] using hnop
    have hzero : w = 0 := by rw [← append_fields w, h0, hrsv, hpay]; decide
    exact ⟨_, (decode_eq_nop_iff w).mpr hzero⟩
  · have hpay : w.extractLsb' 2 54 = 0 := by simpa [cfgPayloadClear, h1] using hcfg
    have hrest : w.extractLsb' 2 58 = 0 := calc
      w.extractLsb' 2 58 = rsvField w ++ w.extractLsb' 2 54 := by
        rw [rsvField, BitVec.extractLsb'_append_extractLsb'_eq_extractLsb' (by decide)]
      _ = 0 := by rw [hrsv, hpay]; decide
    exact ⟨_, decode_of_rowMatches_cfg ((rowMatches_cfg_iff_fields w).mpr ⟨h1, hrest⟩)⟩
  · exact ⟨_, decode_of_rowMatches_sample ((Machine.rowMatches_sample_iff_fields w).mpr ⟨h2, hrsv⟩)⟩

theorem wordLegal_of_decode_eq_error {w : Word} {r : IllegalWord} (hd : decode w = .error r) : wordLegal w = false := by
  refine Bool.eq_false_iff.mpr fun h => ?_
  obtain ⟨i, hi⟩ := exists_decode_eq_ok h
  cases hi.symm.trans hd

end Sys2Proof
end

section
/-!
PROOFS. The three errors (60_exceptions R130 to R132). The error a word raises is a function of the word and `CFG_VALID`, so
there is at most one; an accepted word raises that error and nothing else, or leaves every flag as it is.
-/
namespace Sys2Proof.Machine

/-- The error an accepted word raises, in the order of the checks of R132: legality of the word, then `CFG_VALID`. -/
def raisedError (w : Word) (s : State) : Option ErrorFlag :=
  match decode w with
  | .error _ => some .illegal
  | .ok .nop => none
  | .ok (.cfg _ _) => if s.cfgValid then some .recfg else none
  | .ok (.sample _ _) => if s.cfgValid then none else some .nocfg

theorem raisedError_of_illegal {w : Word} {r : IllegalWord} (hd : decode w = .error r) (s : State) :
    raisedError w s = some .illegal := by
  simp [raisedError, hd]

theorem raisedError_of_nop {w : Word} (hd : decode w = .ok .nop) (s : State) : raisedError w s = none := by
  simp [raisedError, hd]

theorem raisedError_of_cfg {w : Word} {m : Mode} {p : Profile} (hd : decode w = .ok (.cfg m p)) (s : State) :
    raisedError w s = if s.cfgValid then some .recfg else none := by
  simp [raisedError, hd]

theorem raisedError_of_sample {w : Word} {st : Byte} {raw : RawBurst} (hd : decode w = .ok (.sample st raw)) (s : State) :
    raisedError w s = if s.cfgValid then none else some .nocfg := by
  simp [raisedError, hd]

/-- An accepted word raises its error and does nothing else, or it has none and changes no flag. -/
theorem Effect.raisedError_cases {w : Word} {s t : State} (he : Effect w s t) :
    (∃ f, raisedError w s = some f ∧ t = raiseError f s) ∨
    (raisedError w s = none ∧ ∀ f, errorFlag t f = errorFlag s f) := by
  cases he with
  | nothing h =>
    rcases h with h | ⟨st, raw, h, hv, -⟩
    · exact .inr ⟨raisedError_of_nop h s, fun _ => rfl⟩
    · exact .inr ⟨by simp [raisedError_of_sample h, hv], fun _ => rfl⟩
  | illegal r h => exact .inl ⟨_, raisedError_of_illegal h s, rfl⟩
  | recfg m p h hv => exact .inl ⟨_, by simp [raisedError_of_cfg h, hv], rfl⟩
  | nocfg st raw h hv => exact .inl ⟨_, by simp [raisedError_of_sample h, hv], rfl⟩
  | configured m p h hv => exact .inr ⟨by simp [raisedError_of_cfg h, hv], errorFlag_configure m p s⟩
  | packet st raw h hv => exact .inr ⟨by simp [raisedError_of_sample h, hv], errorFlag_emit _ s⟩

theorem acceptWord_of_raisedError {w : Word} {s : State} {f : ErrorFlag} (h : raisedError w s = some f) :
    acceptWord w s = .next (raiseError f s) := by
  obtain ⟨t, ht, he⟩ := acceptWord_effect w s
  rcases he.raisedError_cases with ⟨g, hg, rfl⟩ | ⟨hnone, -⟩
  · cases hg.symm.trans h
    exact ht
  · cases hnone.symm.trans h

/-- The flag that changed names the error that was raised. -/
theorem Effect.raisedError_of_errorFlag_ne {w : Word} {s t : State} {f : ErrorFlag} (he : Effect w s t)
    (hne : errorFlag t f ≠ errorFlag s f) : raisedError w s = some f := by
  rcases he.raisedError_cases with ⟨g, hg, rfl⟩ | ⟨-, hsame⟩
  · obtain rfl : f = g := by_contra fun h => hne (errorFlag_raiseError_of_ne h s)
    exact hg
  · exact absurd (hsame f) hne

/-- A flag is set after a word exactly when it was set before or the word raises its error. -/
theorem Effect.errorFlag_eq_true_iff {w : Word} {s t : State} (he : Effect w s t) (f : ErrorFlag) :
    errorFlag t f = true ↔ errorFlag s f = true ∨ raisedError w s = some f := by
  constructor
  · intro ht
    by_cases hs : errorFlag s f = true
    · exact .inl hs
    · exact .inr (he.raisedError_of_errorFlag_ne (ht ▸ Ne.symm hs))
  · rintro (hs | hf)
    · exact he.keeps_errorFlag hs
    · cases (acceptWord_of_raisedError hf).symm.trans he.acceptWord_eq
      exact errorFlag_raiseError_self f s

theorem raisedError_eq_illegal_iff (w : Word) (s : State) :
    raisedError w s = some .illegal ↔ wordLegal w = false := by
  cases hd : decode w with
  | error r => simp [raisedError_of_illegal hd, wordLegal_of_decode_eq_error hd]
  | ok i =>
    cases i with
    | nop => simp [raisedError_of_nop hd, wordLegal_of_decode hd]
    | cfg m p => simp [raisedError_of_cfg hd, wordLegal_of_decode hd]
    | sample st raw => simp [raisedError_of_sample hd, wordLegal_of_decode hd]

theorem raisedError_eq_nocfg_iff (w : Word) (s : State) :
    raisedError w s = some .nocfg ↔ s.cfgValid = false ∧ ∃ st raw, decode w = .ok (.sample st raw) := by
  cases hd : decode w with
  | error r => simp [raisedError_of_illegal hd]
  | ok i =>
    cases i with
    | nop => simp [raisedError_of_nop hd]
    | cfg m p => simp [raisedError_of_cfg hd]
    | sample st raw => simp [raisedError_of_sample hd]

theorem raisedError_eq_recfg_iff (w : Word) (s : State) :
    raisedError w s = some .recfg ↔ s.cfgValid = true ∧ ∃ m p, decode w = .ok (.cfg m p) := by
  cases hd : decode w with
  | error r => simp [raisedError_of_illegal hd]
  | ok i =>
    cases i with
    | nop => simp [raisedError_of_nop hd]
    | cfg m p => simp [raisedError_of_cfg hd]
    | sample st raw => simp [raisedError_of_sample hd]

theorem noError_eq_true_iff (s : State) :
    noError s = true ↔ s.errIllegal = false ∧ s.errNocfg = false ∧ s.errRecfg = false := by
  simp [noError, and_assoc]

theorem errorFlag_of_noError {s : State} (h : noError s = true) (f : ErrorFlag) : errorFlag s f = false := by
  obtain ⟨hi, hn, hr⟩ := (noError_eq_true_iff s).mp h
  cases f with
  | illegal => exact hi
  | nocfg => exact hn
  | recfg => exact hr

theorem noError_of_errorFlag_eq {s t : State} (h : ∀ f, errorFlag t f = errorFlag s f) : noError t = noError s := by
  have hi : t.errIllegal = s.errIllegal := h .illegal
  have hn : t.errNocfg = s.errNocfg := h .nocfg
  have hr : t.errRecfg = s.errRecfg := h .recfg
  rw [noError, hi, hn, hr, ← noError]

/-- The state with its error record wiped. -/
def clearFlags (s : State) : State := { s with errIllegal := false, errNocfg := false, errRecfg := false }

@[simp] theorem clearFlags_raiseError (f : ErrorFlag) (s : State) : clearFlags (raiseError f s) = clearFlags s := by
  cases f <;> rfl

theorem clearFlags_of_noError {s : State} (h : noError s = true) : clearFlags s = s := by
  cases s
  obtain ⟨rfl, rfl, rfl⟩ := (noError_eq_true_iff _).mp h
  rfl

/-- A word that raises an error leaves no trace of itself but the flag (R130). -/
theorem Effect.clearFlags_eq {w : Word} {s t : State} (he : Effect w s t) (hs : noError s = true)
    (ht : noError t = false) : clearFlags t = s := by
  rcases he.raisedError_cases with ⟨f, -, rfl⟩ | ⟨-, hsame⟩
  · rw [clearFlags_raiseError, clearFlags_of_noError hs]
  · simp [noError_of_errorFlag_eq hsame, hs] at ht

/-- From clear flags, a word sets exactly the flag of the error it raises. -/
theorem Effect.errorFlag_eq_true_iff_of_noError {w : Word} {s t : State} (he : Effect w s t) (hs : noError s = true)
    (f : ErrorFlag) : errorFlag t f = true ↔ raisedError w s = some f := by
  simp [he.errorFlag_eq_true_iff, errorFlag_of_noError hs]

/-- An error's code is the number of its flag's bit in `STATUS` (R28, R130). -/
theorem getLsbD_statusPort_errorCode (s : State) (f : ErrorFlag) :
    (statusPort s).getLsbD (errorCode f) = errorFlag s f := by
  rw [statusPort]
  iterate 7 rw [BitVec.getLsbD_append]
  cases f <;> simp [errorCode, errorFlag]

/-- Settles O25: the flag set after a word is that of `raisedError`, whose value is each error on that error's cause. -/
theorem errorConditionsAndCauses : Obligations.ErrorConditionsAndCauses := by
  refine ⟨getLsbD_statusPort_errorCode, ⟨rfl, rfl, rfl⟩, fun w s t h hs => ?_⟩
  have he := effect_of_acceptWord h
  have hflag := he.errorFlag_eq_true_iff_of_noError hs
  exact ⟨(hflag .illegal).trans (raisedError_eq_illegal_iff w s), (hflag .nocfg).trans (raisedError_eq_nocfg_iff w s),
    (hflag .recfg).trans (raisedError_eq_recfg_iff w s), he.clearFlags_eq hs⟩

/-- Settles O26: each error is the one value of `raisedError` under its check, and only the flag it names can change. -/
theorem oneErrorInOrder : Obligations.OneErrorInOrder := by
  intro w s
  refine ⟨fun h => acceptWord_of_raisedError ((raisedError_eq_illegal_iff w s).mpr h),
    fun m p hd hc => acceptWord_of_raisedError ((raisedError_eq_recfg_iff w s).mpr ⟨hc, m, p, hd⟩),
    fun st raw hd hc => acceptWord_of_raisedError ((raisedError_eq_nocfg_iff w s).mpr ⟨hc, st, raw, hd⟩),
    fun st raw hd hc hnot => (Effect.nothing (.inr ⟨st, raw, hd, hc, hnot⟩)).acceptWord_eq, fun t h f g hf hg => ?_⟩
  have he := effect_of_acceptWord h
  exact Option.some.inj ((he.raisedError_of_errorFlag_ne hf).symm.trans (he.raisedError_of_errorFlag_ne hg))

/-- Settles O24: the rules of `raiseError` for the flags, and its field lemmas for the rest of the state. -/
theorem raisingSetsOneFlagOnly : Obligations.RaisingSetsOneFlagOnly := by
  intro f s
  refine ⟨errorFlag_raiseError_self f s, fun g hg => errorFlag_raiseError_of_ne hg s, ?_⟩
  cases f with
  | illegal | nocfg | recfg => simp

end Sys2Proof.Machine
end

section
/-!
PROOFS. Reset (70_reset_and_hazards R160, R162, R163): the values it loads, no command word does its work, and only
a `CFG` configures after it.
-/
namespace Sys2Proof.Machine

@[simp] theorem statusPort_resetFields (s : State) : statusPort (resetFields s) = 0x00 := by
  simp [statusPort, modeBit, profileBit]

/-- Only a `CFG` sets `CFG_VALID` (R163). -/
theorem Effect.exists_decode_eq_cfg {w : Word} {s t : State} (he : Effect w s t) (hs : s.cfgValid = false)
    (ht : t.cfgValid = true) : ∃ m p, decode w = .ok (.cfg m p) := by
  cases he with
  | configured m p h => exact ⟨m, p, h⟩
  | nothing | illegal | recfg | nocfg | packet => exact absurd ht (Bool.eq_false_iff.mp hs)

/-- Settles O30: `resetFields` and power-on by their fields; then what every effect keeps of a configured state, so that no
word acts as a reset, and of an unconfigured one. -/
theorem resetLoadsEveryField : Obligations.ResetLoadsEveryField := by
  refine ⟨fun s => by simp, by decide, fun w s t h => ?_, fun w s t hs h => ?_⟩
  · have he := effect_of_acceptWord h
    exact ⟨fun hc => (he.keeps_configuration hc).1, fun _ => he.keeps_errorFlag⟩
  · have he := effect_of_acceptWord h
    refine ⟨he.emitted_of_unconfigured hs, fun hno => Bool.eq_false_iff.mpr fun ht => ?_⟩
    obtain ⟨m, p, hd⟩ := he.exists_decode_eq_cfg hs ht
    exact hno m p hd

end Sys2Proof.Machine
end

section
/-!
PROOFS. One step by the event it takes (70_reset_and_hazards R160, R161, R170; 10_state R29; 30_encoding R66, R67): the
equation of each kind of event, and that every event has an answer.
-/
namespace Sys2Proof.Machine

theorem step_of_idle {s : State} (h : s.hostInput = []) : step s = .next s := by
  simp [step, takeEvent, h]

/-- A step is the host's next event, at the state the event is taken off. -/
theorem step_of_event {s : State} {e : PortEvent} {es : List PortEvent} (h : s.hostInput = e :: es) :
    step s = portEvent e { s with hostInput := es } := by
  simp [step, takeEvent, dropEvent, h]

/-- A word under reset is dropped (R161). -/
theorem step_of_command_in_reset {s : State} {w : Word} {es : List PortEvent} (h : s.hostInput = .command w :: es)
    (hr : s.resetLine = true) : step s = .next { s with hostInput := es } := by
  simp [step_of_event h, portEvent, commandPort, hr]

/-- With the reset input released, a word is accepted. -/
theorem step_of_command {s : State} {w : Word} {es : List PortEvent} (h : s.hostInput = .command w :: es)
    (hr : s.resetLine = false) : step s = acceptWord w { s with hostInput := es } := by
  simp [step_of_event h, portEvent, commandPort, hr]

theorem exists_commandPort_eq_next (w : Word) (s : State) : ∃ t, commandPort w s = .next t := by
  rcases commandPort_cases w s with ⟨-, he⟩ | ⟨-, he⟩
  · exact ⟨s, he⟩
  · obtain ⟨t, ht, -⟩ := acceptWord_effect w s
    exact ⟨t, he.trans ht⟩

theorem exists_step_eq_next (s : State) : ∃ t, step s = .next t := by
  cases hi : s.hostInput with
  | nil => exact ⟨s, step_of_idle hi⟩
  | cons e es =>
    rw [step_of_event hi]
    cases e with
    | command w => exact exists_commandPort_eq_next w _
    | assertReset | releaseReset | readStatus => exact ⟨_, rfl⟩

/-- Settles O33: the accepted word is legal, so it runs its command. -/
theorem stepRunsThePresentedCommand : Obligations.StepRunsThePresentedCommand :=
  fun _ _ _ _ hi hr hd => (step_of_command hi hr).trans (acceptWord_of_decode hd _)

/-- Settles O34: the accepted word is illegal, so it raises `ERR_ILLEGAL`. -/
theorem stepOnAnIllegalWord : Obligations.StepOnAnIllegalWord :=
  fun _ _ _ hi hr hw => (step_of_command hi hr).trans (acceptWord_of_not_wordLegal hw _)

/-- Settles O35: the two levels are driven by their own events, and a word between them is dropped. -/
theorem stepAtTheResetInput : Obligations.StepAtTheResetInput :=
  ⟨fun _ _ hi => ⟨_, step_of_event hi, rfl, statusPort_resetFields _⟩, fun _ _ _ => step_of_command_in_reset,
    fun _ _ hi => step_of_event hi⟩

/-- Settles O36: the read writes the host's record alone. -/
theorem stepReadingStatus : Obligations.StepReadingStatus :=
  fun _ _ hi => ⟨_, step_of_event hi, rfl, rfl⟩

/-- Settles O37: nothing presented, nothing taken. -/
theorem stepIdlesWithoutInput : Obligations.StepIdlesWithoutInput := fun _ => step_of_idle

/-- Settles O38: each of the four events has an answer, a word because it is dropped or has one of the effects of
`Effect`. -/
theorem everyStepAnswersANextState : Obligations.EveryStepAnswersANextState := exists_step_eq_next

end Sys2Proof.Machine
end

section
/-!
PROOFS. What a command leaves unchanged (40_configuration, 42_packetizer, 10_state R30 and section 5).
-/
namespace Sys2Proof.Machine

/-- No accepted word touches what the model keeps for the reset input, the host and the `STATUS` port. -/
theorem Effect.keeps_ports {w : Word} {s t : State} (he : Effect w s t) :
    t.resetLine = s.resetLine ∧ t.hostInput = s.hostInput ∧ t.statusReads = s.statusReads := by
  cases he with
  | nothing | illegal | recfg | nocfg | configured | packet => exact ⟨rfl, rfl, rfl⟩

/-- A command does what its own word does. -/
theorem effect_of_exec {i : Instr} {s t : State} (h : exec i s = .next t) : Effect (encode i) s t :=
  effect_of_acceptWord ((acceptWord_of_decode (decode_encode i) s).trans h)

theorem execCfg_frame {m : Mode} {p : Profile} {s t : State} (h : execCfg m p s = .next t) :
    t.errIllegal = s.errIllegal ∧ t.errNocfg = s.errNocfg ∧ t.emitted = s.emitted ∧
    (s.cfgValid = true → t.cfgValid = s.cfgValid ∧ t.mode = s.mode ∧ t.profile = s.profile) ∧
    (s.cfgValid = false → t.errRecfg = s.errRecfg) := by
  rcases execCfg_cases m p s with ⟨hc, he⟩ | ⟨hc, he⟩
  all_goals
    cases he.symm.trans h
    simp [hc]

theorem execSample_frame {st : Byte} {raw : RawBurst} {s t : State} (h : execSample st raw s = .next t) :
    t.cfgValid = s.cfgValid ∧ t.mode = s.mode ∧ t.profile = s.profile ∧ t.errIllegal = s.errIllegal ∧
    t.errRecfg = s.errRecfg ∧ (t.errNocfg = s.errNocfg ∨ t.emitted = s.emitted) ∧
    (s.cfgValid = true → t.errNocfg = s.errNocfg) ∧ (s.cfgValid = false → t.emitted = s.emitted) := by
  rcases execSample_cases st raw s with ⟨hc, he⟩ | ⟨hc, -, he⟩ | ⟨hc, -, he⟩
  all_goals
    cases he.symm.trans h
    simp [hc]

/-- Settles O31: the frames of `CFG` and `SAMPLE` from their cases, the ports' from the effect of a command's word. -/
theorem commandFrames : Obligations.CommandFrames :=
  ⟨fun _ _ h => (Host.Outcome.next.inj h).symm, fun _ _ _ _ => execCfg_frame, fun _ _ _ _ => execSample_frame,
    fun _ _ _ h => (effect_of_exec h).keeps_ports⟩

/-- Settles O32: the other machine has the same kind of effect, and a word has one answer only. -/
theorem outputDependsOnWordAndConfigurationOnly : Obligations.OutputDependsOnWordAndConfigurationOnly := by
  intro w s s' t t' h h' hc hm hp
  obtain ⟨u, hu, hsame⟩ := (effect_of_acceptWord h).of_same_configuration hc hm hp
  cases hu.acceptWord_eq.symm.trans h'
  exact hsame

end Sys2Proof.Machine
end

section
/-!
PROOFS. The machine's invariant (10_state R23, 42_packetizer R112, R113, 70_reset_and_hazards R160, R161).
-/
namespace Sys2Proof.Machine

/-- Every packet that the framing function builds is whole. -/
theorem wellFramed_frame (m : Mode) (p : Profile) (raw : RawBurst) : wellFramed (frame m p raw) := by
  refine ⟨rfl, ?_, ?_⟩
  · simp only [frame, List.getLast?_concat]
    rfl
  · rw [frame_length]
    cases p with
    | rawScaled => exact .inl rfl
    | physicalUnit => exact .inr rfl

/-- An accepted word appends one packet that is due, or leaves the output alone. -/
theorem Effect.emitted_cases {w : Word} {s t : State} (he : Effect w s t) :
    t.emitted = s.emitted ∨
    (s.cfgValid = true ∧ (∃ st raw, decode w = .ok (.sample st raw) ∧ dataReady st = true) ∧
      ∃ raw, t.emitted = s.emitted ++ [frame s.mode s.profile raw]) := by
  cases he with
  | nothing | illegal | recfg | nocfg | configured => exact .inl rfl
  | packet st raw h hv hd => exact .inr ⟨hv, ⟨st, raw, h, hd⟩, raw, rfl⟩

/-- A word that leaves SDF unconfigured writes neither `MODE` nor `PROFILE`. -/
theorem Effect.mode_profile_of_unconfigured {w : Word} {s t : State} (he : Effect w s t) (ht : t.cfgValid = false) :
    s.cfgValid = false ∧ t.mode = s.mode ∧ t.profile = s.profile := by
  cases he with
  | nothing | illegal | recfg | nocfg | packet => exact ⟨ht, rfl, rfl⟩
  | configured => cases ht

/-- An accepted word keeps the invariant. -/
theorem Effect.keeps_inv {w : Word} {s t : State} (he : Effect w s t) (hr : s.resetLine = false) (hs : Inv s) :
    Inv t := by
  obtain ⟨hcfg, -, hpk⟩ := hs
  obtain ⟨hline, -, -⟩ := he.keeps_ports
  refine ⟨fun ht => ?_, fun ht => ?_, fun pk hmem => ?_⟩
  · obtain ⟨hc, hm, hp⟩ := he.mode_profile_of_unconfigured ht
    rw [hm, hp]
    exact hcfg hc
  · simp [hline, hr] at ht
  · rcases he.emitted_cases with hem | ⟨-, -, raw, hem⟩
    · exact hpk pk (hem ▸ hmem)
    · rw [hem, List.mem_append, List.mem_singleton] at hmem
      rcases hmem with hold | rfl
      · exact hpk pk hold
      · exact wellFramed_frame ..

/-- Settles O39: nothing is configured, flagged or emitted. -/
theorem resetMeetsTheInvariant : Obligations.ResetMeetsTheInvariant :=
  ⟨fun _ => ⟨rfl, rfl⟩, fun _ => ⟨rfl, rfl, rfl, rfl⟩, fun _ h => absurd h List.not_mem_nil⟩

/-- Settles O40: only an accepted word, asserting reset and releasing it write a field the invariant speaks of. -/
theorem everyStepKeepsTheInvariant : Obligations.EveryStepKeepsTheInvariant := by
  intro s t hs h
  have ⟨hcfg, _, hpk⟩ := hs
  rcases step_cases h with ⟨-, rfl⟩ | ⟨w, es, -, -, rfl⟩ | ⟨w, es, -, hr, he⟩ | ⟨es, -, rfl⟩ | ⟨es, -, rfl⟩ |
    ⟨es, -, rfl⟩
  · exact hs
  · exact hs
  · exact he.keeps_inv hr hs
  · exact ⟨fun _ => ⟨rfl, rfl⟩, fun _ => ⟨rfl, rfl, rfl, rfl⟩, hpk⟩
  · exact ⟨hcfg, fun ht => absurd ht Bool.false_ne_true, hpk⟩
  · exact hs

end Sys2Proof.Machine
end

section
/-!
PROOFS. What a step writes (10_state section 2, the state table's "written by" column; 20_memory sections 3 and 4): but
for the assertion of reset, SDF's fields and its output are written by accepted words only.
-/
namespace Sys2Proof.Machine

/-- A step that does not assert reset leaves everything observable alone, or SDF accepts the next word. -/
theorem step_observe_or_effect {s t : State} (h : step s = .next t) (hne : s.hostInput.head? ≠ some .assertReset) :
    observe t = observe s ∨
    (s.resetLine = false ∧ ∃ w, s.hostInput.head? = some (.command w) ∧ Effect w (dropEvent s) t) := by
  rcases step_cases h with ⟨-, rfl⟩ | ⟨w, es, -, -, rfl⟩ | ⟨w, es, hi, hr, he⟩ | ⟨es, hi, -⟩ | ⟨es, -, rfl⟩ |
    ⟨es, -, rfl⟩
  · exact .inl rfl
  · exact .inl rfl
  · exact .inr ⟨hr, w, by rw [hi, List.head?_cons], he⟩
  · exact absurd (by rw [hi, List.head?_cons]) hne
  · exact .inl rfl
  · exact .inl rfl

/-- What the observation shows of the flags. -/
theorem errorFlag_of_observe_eq {s t : State} (h : observe t = observe s) (f : ErrorFlag) :
    errorFlag t f = errorFlag s f := by
  cases f with
  | illegal => exact congrArg Observation.errIllegal h
  | nocfg => exact congrArg Observation.errNocfg h
  | recfg => exact congrArg Observation.errRecfg h

/-- Only the first `CFG` changes the configuration, and to its operands. -/
theorem Effect.configures_of_ne {w : Word} {s t : State} (he : Effect w s t)
    (hne : t.cfgValid ≠ s.cfgValid ∨ t.mode ≠ s.mode ∨ t.profile ≠ s.profile) :
    s.cfgValid = false ∧ ∃ m p, decode w = .ok (.cfg m p) ∧ t.mode = m ∧ t.profile = p := by
  cases he with
  | nothing | illegal | recfg | nocfg | packet => simp at hne
  | configured m p h hv => exact ⟨hv, m, p, h, rfl, rfl⟩

/-- A flag that a step changes is that of the error raised by the word it accepts. -/
theorem raisedError_of_step_errorFlag_ne {s t : State} {f : ErrorFlag} (h : step s = .next t)
    (hne : s.hostInput.head? ≠ some .assertReset) (hf : errorFlag t f ≠ errorFlag s f) :
    s.resetLine = false ∧ ∃ w, s.hostInput.head? = some (.command w) ∧ raisedError w (dropEvent s) = some f := by
  rcases step_observe_or_effect h hne with hobs | ⟨hr, w, hi, he⟩
  · exact absurd (errorFlag_of_observe_eq hobs f) hf
  · exact ⟨hr, w, hi, he.raisedError_of_errorFlag_ne hf⟩

theorem step_keeps_cfgValid {s t : State} (h : step s = .next t) (hne : s.hostInput.head? ≠ some .assertReset)
    (hc : s.cfgValid = true) : t.cfgValid = true := by
  rcases step_observe_or_effect h hne with hobs | ⟨-, w, -, he⟩
  · exact (congrArg Observation.cfgValid hobs).trans hc
  · exact (he.keeps_configuration hc).1

theorem step_keeps_errorFlag {s t : State} {f : ErrorFlag} (h : step s = .next t)
    (hne : s.hostInput.head? ≠ some .assertReset) (hf : errorFlag s f = true) : errorFlag t f = true := by
  rcases step_observe_or_effect h hne with hobs | ⟨-, w, -, he⟩
  · exact (errorFlag_of_observe_eq hobs f).trans hf
  · exact he.keeps_errorFlag hf

theorem step_configures_of_ne {s t : State} (h : step s = .next t) (hne : s.hostInput.head? ≠ some .assertReset)
    (hconf : t.cfgValid ≠ s.cfgValid ∨ t.mode ≠ s.mode ∨ t.profile ≠ s.profile) :
    s.cfgValid = false ∧ s.resetLine = false ∧ ∃ w m p, s.hostInput.head? = some (.command w) ∧
      decode w = .ok (.cfg m p) ∧ t.mode = m ∧ t.profile = p := by
  rcases step_observe_or_effect h hne with hobs | ⟨hr, w, hi, he⟩
  · simp only [observe, Observation.mk.injEq] at hobs
    simp [hobs] at hconf
  · obtain ⟨hc, m, p, hd, hm, hp⟩ := he.configures_of_ne hconf
    exact ⟨hc, hr, w, m, p, hi, hd, hm, hp⟩

/-- Settles O42: stickiness and the causes of an accepted word, and `raisedError` names the cause of each flag. -/
theorem fieldsAreWrittenByTheirOwnCausesOnly : Obligations.FieldsAreWrittenByTheirOwnCausesOnly := by
  intro s t h hne
  refine ⟨step_keeps_cfgValid h hne, fun f => step_keeps_errorFlag h hne, step_configures_of_ne h hne, fun hf => ?_,
    fun hf => ?_, fun hf => ?_⟩
  · obtain ⟨hr, w, hi, hraise⟩ := raisedError_of_step_errorFlag_ne (f := .illegal) h hne hf
    exact ⟨hr, w, hi, (raisedError_eq_illegal_iff ..).mp hraise⟩
  · obtain ⟨hr, w, hi, hraise⟩ := raisedError_of_step_errorFlag_ne (f := .nocfg) h hne hf
    obtain ⟨hc, st, raw, hd⟩ := (raisedError_eq_nocfg_iff ..).mp hraise
    exact ⟨hr, hc, w, st, raw, hi, hd⟩
  · obtain ⟨hr, w, hi, hraise⟩ := raisedError_of_step_errorFlag_ne (f := .recfg) h hne hf
    obtain ⟨hc, m, p, hd⟩ := (raisedError_eq_recfg_iff ..).mp hraise
    exact ⟨hr, hc, w, m, p, hi, hd⟩

/-- A word is a ready `SAMPLE` by its top byte and its bit 51 (R64, R115). -/
theorem exists_decode_eq_ready_sample_iff (w : Word) :
    (∃ st raw, decode w = .ok (.sample st raw) ∧ dataReady st = true) ↔
      w.extractLsb' 56 8 = 0x20#8 ∧ w.getLsbD 51 = true := by
  have hbit : dataReady (stField w) = w.getLsbD 51 := by simp [dataReady, drdyBit, stField]
  rw [← rowMatches_sample_iff, ← hbit]
  simp only [decode_eq_sample_iff]
  constructor
  · rintro ⟨st, raw, ⟨hrow, rfl, -⟩, hd⟩
    exact ⟨hrow, hd⟩
  · rintro ⟨hrow, hd⟩
    exact ⟨stField w, rawOfWord w, ⟨hrow, rfl, rfl⟩, hd⟩

/-- A step that changes the output accepts a ready `SAMPLE` of a configured SDF, and appends its packet. -/
theorem step_emits_of_ne {s t : State} (h : step s = .next t) (hne : t.emitted ≠ s.emitted) :
    s.cfgValid = true ∧ s.resetLine = false ∧
    (∃ w es, s.hostInput = .command w :: es ∧ ∃ st raw, decode w = .ok (.sample st raw) ∧ dataReady st = true) ∧
    ∃ raw, t.emitted = s.emitted ++ [frame s.mode s.profile raw] := by
  rcases step_cases h with ⟨-, rfl⟩ | ⟨w, es, -, -, rfl⟩ | ⟨w, es, hi, hr, he⟩ | ⟨es, -, rfl⟩ | ⟨es, -, rfl⟩ |
    ⟨es, -, rfl⟩
  case inr.inr.inl =>
    obtain hsame | ⟨hc, hready, hpk⟩ := he.emitted_cases
    · exact absurd hsame hne
    · exact ⟨hc, hr, ⟨w, es, hi, hready⟩, hpk⟩
  all_goals exact absurd rfl hne

/-- The step on a presented `SAMPLE` that a released, configured SDF finds ready. -/
theorem step_of_ready_sample {s : State} {w : Word} {es : List PortEvent} {st : Byte} {raw : RawBurst}
    (hi : s.hostInput = .command w :: es) (hr : s.resetLine = false) (hd : decode w = .ok (.sample st raw))
    (hc : s.cfgValid = true) (hready : dataReady st = true) :
    step s = .next (emit (frame s.mode s.profile raw) { s with hostInput := es }) :=
  (stepRunsThePresentedCommand s w es _ hi hr hd).trans
    (execSample_of_ready raw (s := { s with hostInput := es }) hc hready)

/-- Settles O41: the packet is the framing function's, and the word's fields tell whether it is due. -/
theorem packetsAppearExactlyWhenDue : Obligations.PacketsAppearExactlyWhenDue := by
  intro s t h
  refine ⟨⟨fun hne => ?_, ?_⟩, fun hne => ?_⟩
  · obtain ⟨hc, hr, ⟨w, es, hi, hready⟩, -⟩ := step_emits_of_ne h hne
    exact ⟨hc, hr, w, es, hi, (exists_decode_eq_ready_sample_iff w).mp hready⟩
  · rintro ⟨hc, hr, w, es, hi, hw⟩
    obtain ⟨st, raw, hd, hready⟩ := (exists_decode_eq_ready_sample_iff w).mpr hw
    cases (step_of_ready_sample hi hr hd hc hready).symm.trans h
    simp
  · obtain ⟨-, -, -, raw, hem⟩ := step_emits_of_ne h hne
    exact ⟨_, hem, wellFramed_frame .., frame_length ..⟩

end Sys2Proof.Machine
end

section
/-!
PROOFS. A host that keeps its duty (70_reset_and_hazards R163, R166): the duty over a list whose first event is a word,
and that the word it allows raises no error.
-/
namespace Sys2Proof.Machine

theorem safeState_eq_true_iff (s : State) :
    safeState s = true ↔ noError s = true ∧ dutyKept s.cfgValid s.resetLine s.hostInput = true := by
  simp [safeState]

/-- A word under reset is outside the duty (R161). -/
theorem dutyKept_command_in_reset (c : Bool) (w : Word) (es : List PortEvent) :
    dutyKept c true (.command w :: es) = dutyKept c true es := by
  simp [dutyKept]

/-- The word that the duty allows raises no error, and the duty goes on from the `CFG_VALID` it leaves. -/
theorem Effect.of_dutyKept {w : Word} {s t : State} {es : List PortEvent} (he : Effect w s t)
    (hduty : dutyKept s.cfgValid false (.command w :: es) = true) :
    raisedError w s = none ∧ dutyKept t.cfgValid false es = true := by
  cases he with
  | nothing h =>
    rcases h with h | ⟨st, raw, h, hv, -⟩
    · simpa [dutyKept, raisedError, h] using hduty
    · simpa [dutyKept, raisedError, h, hv] using hduty
  | illegal r h => simp [dutyKept, h] at hduty
  | recfg m p h hv => simp [dutyKept, h, hv] at hduty
  | nocfg st raw h hv => simp [dutyKept, h, hv] at hduty
  | configured m p h hv => simpa [dutyKept, raisedError, h, hv] using hduty
  | packet st raw h hv => simpa [dutyKept, raisedError, h, hv] using hduty

/-- A word that raises no error leaves no flag set that was not. -/
theorem Effect.noError_of_raisedError_eq_none {w : Word} {s t : State} (he : Effect w s t)
    (hnone : raisedError w s = none) (hs : noError s = true) : noError t = true := by
  rcases he.raisedError_cases with ⟨f, hf, -⟩ | ⟨-, hsame⟩
  · cases hnone.symm.trans hf
  · exact (noError_of_errorFlag_eq hsame).trans hs

/-- Accepting the word that a safe state's host presents next gives a safe state. -/
theorem Effect.safeState_of_dutyKept {w : Word} {s t : State} (he : Effect w s t) (hr : s.resetLine = false)
    (hs : noError s = true) (hduty : dutyKept s.cfgValid false (.command w :: s.hostInput) = true) :
    safeState t = true := by
  obtain ⟨hnone, hrest⟩ := he.of_dutyKept hduty
  obtain ⟨hline, hinput, -⟩ := he.keeps_ports
  rw [safeState_eq_true_iff, hline, hr, hinput]
  exact ⟨he.noError_of_raisedError_eq_none hnone hs, hrest⟩

/-- Settles O45: a word is dropped under reset or raises no error, and each other event leaves the flags clear and the
duty over the remaining events as `dutyKept` says. -/
theorem dutifulHostNeverSeesAnError : Obligations.DutifulHostNeverSeesAnError := by
  intro s t hs h
  obtain ⟨hflags, hduty⟩ := (safeState_eq_true_iff s).mp hs
  rcases step_cases h with ⟨-, rfl⟩ | ⟨w, es, hi, hr, rfl⟩ | ⟨w, es, hi, hr, he⟩ | ⟨es, hi, rfl⟩ | ⟨es, hi, rfl⟩ |
    ⟨es, hi, rfl⟩
  · exact hs
  · rw [hi, hr, dutyKept_command_in_reset] at hduty
    exact (safeState_eq_true_iff _).mpr ⟨hflags, by simpa [hi, hr] using hduty⟩
  · exact he.safeState_of_dutyKept hr hflags (by simpa [hi, hr] using hduty)
  · exact (safeState_eq_true_iff _).mpr ⟨rfl, by simpa [hi, dutyKept] using hduty⟩
  · exact (safeState_eq_true_iff _).mpr ⟨hflags, by simpa [hi, dutyKept] using hduty⟩
  · exact (safeState_eq_true_iff _).mpr ⟨hflags, by simpa [hi, dutyKept] using hduty⟩

end Sys2Proof.Machine
end

section
/-!
PROOFS. Runs (20_memory R49): a step takes one event, so a run takes as many as it has steps; a stream of samples.
-/
namespace Sys2Proof.Machine

theorem step_hostInput {s t : State} (h : step s = .next t) : t.hostInput = s.hostInput.tail := by
  rcases step_cases h with ⟨hi, rfl⟩ | ⟨w, es, -, -, rfl⟩ | ⟨w, es, -, -, he⟩ | ⟨es, -, rfl⟩ | ⟨es, -, rfl⟩ |
    ⟨es, -, rfl⟩
  case inl => rw [hi, List.tail_nil]
  case inr.inr.inl =>
    obtain ⟨-, hinput, -⟩ := he.keeps_ports
    exact hinput
  all_goals rfl

/-- `run_of_step` for this machine, in the terms that `step` is stated in. -/
theorem core_run_of_step (k : Nat) {s t : State} (h : step s = .next t) : core.run (k + 1) s = core.run k t :=
  run_of_step core k s t h

/-- Settles O43, by induction on the events that wait. -/
theorem runsConsumeTheHostsInput : Obligations.RunsConsumeTheHostsInput := by
  intro s
  induction hi : s.hostInput generalizing s with
  | nil => exact ⟨s, rfl, hi⟩
  | cons e es ih =>
    obtain ⟨t, ht⟩ := exists_step_eq_next s
    have hes : t.hostInput = es := by rw [step_hostInput ht, hi, List.tail_cons]
    obtain ⟨u, hrun, hu⟩ := ih t hes
    exact ⟨u, (core_run_of_step es.length ht).trans hrun, hu⟩

/-- The step on a `SAMPLE` that is not ready takes the event and nothing else, whether SDF is configured and released or
the word is dropped. -/
theorem step_of_sample_not_ready {s : State} {st : Byte} {raw : RawBurst} {es : List PortEvent}
    (hi : s.hostInput = presentedSample st raw :: es) (hc : s.cfgValid = true) (hd : dataReady st = false) :
    step s = .next { s with hostInput := es } := by
  obtain hr | hr := Bool.eq_false_or_eq_true s.resetLine
  · exact step_of_command_in_reset hi hr
  · exact (stepRunsThePresentedCommand s _ es _ hi hr (decode_encode _)).trans
      (execSample_of_not_ready raw (s := { s with hostInput := es }) hc hd)

/-- The packets of the ready ones among some samples, in order. -/
def readyPackets (m : Mode) (p : Profile) (samples : List (Byte × RawBurst)) : List Packet :=
  (samples.filter fun x => dataReady x.1).map fun x => frame m p x.2

theorem readyPackets_cons_of_ready (m : Mode) (p : Profile) {x : Byte × RawBurst} (xs : List (Byte × RawBurst))
    (hd : dataReady x.1 = true) : readyPackets m p (x :: xs) = frame m p x.2 :: readyPackets m p xs := by
  simp [readyPackets, hd]

theorem readyPackets_cons_of_not_ready (m : Mode) (p : Profile) {x : Byte × RawBurst} (xs : List (Byte × RawBurst))
    (hd : dataReady x.1 = false) : readyPackets m p (x :: xs) = readyPackets m p xs := by
  simp [readyPackets, hd]

/-- A stream of samples, by induction on it: a ready sample appends its packet, another one only leaves the port. -/
theorem core_run_samples {s : State} (samples : List (Byte × RawBurst)) (rest : List PortEvent)
    (hc : s.cfgValid = true) (hr : s.resetLine = false)
    (hi : s.hostInput = samples.map (fun x => presentedSample x.1 x.2) ++ rest) :
    core.run samples.length s =
      .next { s with hostInput := rest, emitted := s.emitted ++ readyPackets s.mode s.profile samples } := by
  induction samples generalizing s with
  | nil =>
    obtain rfl : s.hostInput = rest := hi
    simp [Host.Core.run, readyPackets]
  | cons x xs ih =>
    rw [List.map_cons, List.cons_append] at hi
    generalize htail : List.map _ xs ++ rest = tail at hi
    cases hd : dataReady x.1 with
    | true =>
      have hstep := step_of_ready_sample hi hr (decode_encode _) hc hd
      have hrun := ih (s := emit (frame s.mode s.profile x.2) { s with hostInput := tail }) hc hr htail.symm
      refine (core_run_of_step xs.length hstep).trans (hrun.trans ?_)
      simp [readyPackets_cons_of_ready _ _ xs hd]
    | false =>
      have hstep := step_of_sample_not_ready hi hc hd
      have hrun := ih (s := { s with hostInput := tail }) hc hr htail.symm
      refine (core_run_of_step xs.length hstep).trans (hrun.trans ?_)
      simp [readyPackets_cons_of_not_ready _ _ xs hd]

/-- Settles O44: the data-ready gate is bit 3. -/
theorem sampleStreamEmitsTheReadySamplesInOrder : Obligations.SampleStreamEmitsTheReadySamplesInOrder :=
  fun _ samples rest => core_run_samples samples rest

end Sys2Proof.Machine
end

section
/-!
PROOFS. The wire (20_memory R48): which packets a drop pattern lets through.
-/
namespace Sys2Proof.Machine

theorem wireFrom_sublist (drop : Nat → Bool) (k : Nat) (ps : List Packet) : (wireFrom drop k ps).Sublist ps := by
  induction ps generalizing k with
  | nil => exact .slnil
  | cons p ps ih =>
    unfold wireFrom
    split
    · exact (ih (k + 1)).cons p
    · exact (ih (k + 1)).cons_cons p

/-- The drop pattern that decides the first packet by `b` and the later ones by `drop`. -/
def dropFirst (b : Bool) (drop : Nat → Bool) : Nat → Bool
  | 0 => b
  | k + 1 => drop k

/-- After the first packet, `dropFirst b drop` is `drop` counted from one packet later. -/
theorem wireFrom_dropFirst (b : Bool) (drop : Nat → Bool) (k : Nat) (ps : List Packet) :
    wireFrom (dropFirst b drop) (k + 1) ps = wireFrom drop k ps := by
  induction ps generalizing k with
  | nil => rfl
  | cons p ps ih => simp only [wireFrom, dropFirst, ih]

/-- Every subsequence is what some drop pattern lets through. -/
theorem exists_wireFrom_eq {ps qs : List Packet} (h : ps.Sublist qs) : ∃ drop, wireFrom drop 0 qs = ps := by
  induction h with
  | slnil => exact ⟨fun _ => false, rfl⟩
  | cons q _ ih =>
    obtain ⟨drop, hdrop⟩ := ih
    exact ⟨dropFirst true drop, (wireFrom_dropFirst ..).trans hdrop⟩
  | cons_cons q _ ih =>
    obtain ⟨drop, hdrop⟩ := ih
    exact ⟨dropFirst false drop, congrArg (q :: ·) ((wireFrom_dropFirst ..).trans hdrop)⟩

/-- Settles O46: a drop pattern only leaves packets out, and a pattern is built packet by packet. -/
theorem wireCarriesASubsequence : Obligations.WireCarriesASubsequence :=
  ⟨fun drop s => wireFrom_sublist drop 0 s.emitted, fun s => wireFrom_sublist Config.txDrop 0 s.emitted,
    fun _ _ => exists_wireFrom_eq⟩

end Sys2Proof.Machine
end

section
/-!
PROOFS. The host's loop (60_exceptions R141 to R148): what one event does, then lists of them.
-/
namespace Sys2Proof.Machine

/-- The loop is in a cycle only while the signal is set (R146, R147). -/
def LoopState.Signalled (h : LoopState) : Prop := h.phase ≠ .waitSignal → h.signal = true

/-- The cycles the loop may still consume without another expiry. -/
def LoopState.credit (h : LoopState) : Nat := if h.signal then 1 else 0

@[simp] theorem LoopState.credit_of_signal (phase : LoopPhase) : LoopState.credit ⟨true, phase⟩ = 1 := rfl

theorem LoopState.Signalled.signal_eq_true {signal : Bool} {phase : LoopPhase}
    (hs : LoopState.Signalled ⟨signal, phase⟩) (hp : phase ≠ .waitSignal) : signal = true := hs hp

/-- After a resolved cycle the loop waits, and has no credit left. -/
theorem signalled_loopResolved : loopResolved.Signalled ∧ loopResolved.credit = 0 :=
  ⟨fun h => absurd rfl h, rfl⟩

/-- One turn of a signalled loop keeps it signalled, and pays for the word it presents with the signal (R146, R147). -/
theorem loopTurn_signalled {h : LoopState} (bus : BusReading) (hs : h.Signalled) :
    (loopTurn h bus).1.Signalled ∧ (loopTurn h bus).2.length + (loopTurn h bus).1.credit ≤ h.credit := by
  obtain ⟨signal, phase⟩ := h
  cases phase with
  | waitSignal => cases signal <;> simp [loopTurn, LoopState.Signalled]
  | checkStatus =>
    obtain rfl := hs.signal_eq_true (by simp)
    cases hst : bus.status with
    | none => simp [loopTurn, hst, signalled_loopResolved]
    | some st =>
      cases hd : dataReady st with
      | true => simp [loopTurn, hst, hd, LoopState.Signalled]
      | false => cases hsk : bus.skipped <;> simp [loopTurn, hst, hd, hsk, signalled_loopResolved]
  | burstRead st =>
    obtain rfl := hs.signal_eq_true (by simp)
    cases hb : bus.burst with
    | none => simp [loopTurn, hb, signalled_loopResolved]
    | some raw => simp [loopTurn, hb, LoopState.Signalled]
  | presentSample st raw =>
    obtain rfl := hs.signal_eq_true (by simp)
    simp [loopTurn, signalled_loopResolved]

/-- An expiry adds one credit at most, and a turn adds none. -/
theorem loopStep_signalled {h : LoopState} (e : LoopEvent) (hs : h.Signalled) :
    (loopStep h e).1.Signalled ∧
    (loopStep h e).2.length + (loopStep h e).1.credit ≤ [e].count .timerExpiry + h.credit := by
  cases e with
  | timerExpiry => simp [loopStep, LoopState.Signalled]
  | turn bus => simpa [loopStep] using loopTurn_signalled bus hs

/-- Settles O47, by induction on the events: an expiry or the signal at the start pays for each word presented. -/
theorem atMostOneCyclePerFiring : Obligations.AtMostOneCyclePerFiring := by
  intro h es hs
  change (loopRun h es).2.length ≤ es.count .timerExpiry + h.credit
  induction es generalizing h with
  | nil => exact Nat.zero_le _
  | cons e es ih =>
    obtain ⟨hs', hpaid⟩ := loopStep_signalled e hs
    have hrest := ih _ hs'
    have hcount : (e :: es).count .timerExpiry = [e].count .timerExpiry + es.count .timerExpiry :=
      List.count_append (l₁ := [e])
    rw [loopRun, List.length_append, hcount]
    omega

/-- Settles O48, by induction on the events, each of which is a turn that finds the signal clear. -/
theorem loopStallsWithoutTheTimer : Obligations.LoopStallsWithoutTheTimer := by
  intro es hno
  induction es with
  | nil => rfl
  | cons e es ih =>
    obtain ⟨hne, hrest⟩ := List.ne_and_not_mem_of_not_mem_cons hno
    cases e with
    | timerExpiry => exact absurd rfl hne
    | turn bus => simp [loopRun, loopStep, loopTurn, ih hrest]

/-- A cycle whose status byte is not ready is over, with the host's choice of a word or nothing (R143, R147). -/
theorem loopTurn_checkStatus_not_ready {bus : BusReading} {st : Byte} (signal : Bool) (hst : bus.status = some st)
    (hd : dataReady st = false) :
    loopTurn ⟨signal, .checkStatus⟩ bus = (loopResolved, (bus.skipped.map (presentedSample st)).toList) := by
  simp [loopTurn, hst, hd]

/-- A configured SDF ends in the same state whether a host presents a cycle that is not ready or leaves it out. -/
theorem run_skipped_sample {s : State} {st : Byte} (skipped : Option RawBurst) (es : List PortEvent)
    (hc : s.cfgValid = true) (hd : dataReady st = false) :
    core.run (skipped.map (presentedSample st)).toList.length
      { s with hostInput := (skipped.map (presentedSample st)).toList ++ es } = .next { s with hostInput := es } := by
  cases skipped with
  | none => rfl
  | some raw =>
    have hstep := step_of_sample_not_ready (s := { s with hostInput := presentedSample st raw :: es }) rfl hc hd
    exact core_run_of_step 0 hstep

/-- Settles O49: a failed read resolves the cycle without a word; `run_skipped_sample` is a cycle not ready. -/
theorem abortedCyclesGiveNoOutput : Obligations.AbortedCyclesGiveNoOutput := by
  refine ⟨fun bus hst => ?_, fun st bus hb => ?_, fun st bus hst hd => ?_⟩
  · simp [loopTurn, hst, loopResolved]
  · simp [loopTurn, hb, loopResolved]
  · rw [loopTurn_checkStatus_not_ready true hst hd]
    exact ⟨rfl, fun s hc es => run_skipped_sample bus.skipped es hc hd⟩

end Sys2Proof.Machine
end

section
/-!
PROOFS. The opcode table is unambiguous and complete (30_encoding R69), and the assembler's words are the encoder's
(30_encoding R70, R71).
-/
namespace Sys2Proof

theorem exists_decode_of_rowMatches {r : OpcodeRow} (hr : r ∈ opcodeTable) {w : Word} (h : rowMatches r w = true) :
    ∃ i, decode w = .ok i := by
  simp only [opcodeTable, List.mem_cons, List.not_mem_nil, or_false] at hr
  rcases hr with rfl | rfl | rfl
  · exact ⟨_, decode_of_rowMatches_nop h⟩
  · exact ⟨_, decode_of_rowMatches_cfg h⟩
  · exact ⟨_, decode_of_rowMatches_sample h⟩

/-- A match fixes the opcode, and no two rows have the same. -/
theorem rowMatches_unique {r r' : OpcodeRow} (hr : r ∈ opcodeTable) (hr' : r' ∈ opcodeTable) {w : Word}
    (h : rowMatches r w = true) (h' : rowMatches r' w = true) : r = r' :=
  opcField_injective_on_opcodeTable r hr r' hr'
    ((opcField_of_rowMatches hr h).symm.trans (opcField_of_rowMatches hr' h'))

/-- Settles O5: the rows differ in their opcodes, and the decoder's cases are the rows. -/
theorem decodingIsTotalAndUnambiguous : Obligations.DecodingIsTotalAndUnambiguous :=
  fun _ => ⟨fun _ hr _ hr' => rowMatches_unique hr hr',
    ⟨fun ⟨_, hr, h⟩ => exists_decode_of_rowMatches hr h, fun ⟨_, hd⟩ => exists_rowMatches_of_decode hd⟩,
    ⟨exists_decode_eq_ok, fun ⟨_, hd⟩ => wordLegal_of_decode hd⟩⟩

/-- Settles O6, word by word. -/
theorem tabulatedWordsDecode : Obligations.TabulatedWordsDecode := by
  unfold Obligations.TabulatedWordsDecode
  decide

/-- A concatenation of fields as the assembler builds it: the upper field shifted over the lower. -/
theorem setWidth_append_eq_or {n k : Nat} (w : Nat) (x : BitVec n) (y : BitVec k) :
    (x ++ y).setWidth w = x.setWidth w <<< k ||| y.setWidth w := by
  ext i hi
  simp only [BitVec.getElem_setWidth, BitVec.getLsbD_append, BitVec.getElem_or, BitVec.getElem_shiftLeft]
  by_cases hik : i < k
  · simp [hik]
  · simp [hik, BitVec.getLsbD_of_ge y i (by omega)]

end Sys2Proof

namespace Sys2Proof.Machine

theorem asmCfgWord_eq_encode (m : Mode) (p : Profile) : asmCfgWord m p = encode (.cfg m p) := by
  cases m <;> cases p <;> decide

/-- The assembler's `SAMPLE` word is the concatenation of the fields. -/
theorem asmSampleWord_eq_encode (st : Byte) (raw : RawBurst) : asmSampleWord st raw = encode (.sample st raw) := by
  rw [← BitVec.setWidth_eq (encode (.sample st raw)), encode, rawBits]
  simp only [setWidth_append_eq_or, BitVec.shiftLeft_or_distrib, ← BitVec.shiftLeft_add, ← BitVec.or_assoc]
  rfl

theorem decode_asmCfgWord (m : Mode) (p : Profile) : decode (asmCfgWord m p) = .ok (.cfg m p) :=
  asmCfgWord_eq_encode m p ▸ decode_encode _

theorem decode_asmSampleWord (st : Byte) (raw : RawBurst) : decode (asmSampleWord st raw) = .ok (.sample st raw) :=
  asmSampleWord_eq_encode st raw ▸ decode_encode _

/-- Settles O7: each line's word is the encoding of the command it stands for. -/
theorem assembledWordsDecode : Obligations.AssembledWordsDecode :=
  ⟨(decode_eq_nop_iff _).mpr rfl, decode_asmCfgWord, decode_asmSampleWord, decode_asmSampleWord 0x08,
    decode_asmSampleWord 0x00 zeroBurst, fun st x y z => decode_asmSampleWord st (rawOfPairs x y z), fun _ => rfl⟩

end Sys2Proof.Machine
end

section
/-!
PROOFS. The datapath against the source's formula, its ranges, and a datapath on machine words (41_decoder sections 2
to 4).
-/
namespace Sys2Proof.Machine

/-- The source's factor `2 × 9.806 × 0.001 × 1000` is `19612 / 1000` (R6). -/
theorem source_formula_eq (s : ℤ) :
    (s : ℚ) * (2 * (9806 / 1000) * (1 / 1000)) * 1000 = ((s * 19612 : ℤ) : ℚ) / (1000 : ℕ) := by
  push_cast
  ring

/-- Settles O13: truncation is the floor of a quotient that is not negative and the ceiling of a negative one. -/
theorem physicalValueIsTheTruncatedFormula : Obligations.PhysicalValueIsTheTruncatedFormula := by
  intro s
  rw [source_formula_eq]
  split
  next hs => rw [Rat.floor_intCast_div_natCast, physicalValue_of_nonneg hs]; rfl
  next hs =>
    rw [Rat.ceil_intCast_div_natCast, physicalValue_of_neg (not_le.mp hs), Int.neg_mul]
    rfl

/-- The physical value grows with the shifted value. -/
theorem physicalValue_mono {s s' : Int} (h : s ≤ s') : physicalValue s ≤ physicalValue s' :=
  Int.tdiv_le_tdiv (by decide) (Int.mul_le_mul_of_nonneg_right h (by decide))

theorem physicalValue_shiftedValue_mem_range (m : Mode) (lsb msb : Byte) :
    physicalValue (-2 ^ (15 - shiftAmount m)) ≤ physicalValue (shiftedValue m lsb msb) ∧
    physicalValue (shiftedValue m lsb msb) ≤ physicalValue (2 ^ (15 - shiftAmount m) - 1) := by
  obtain ⟨hlow, hhigh⟩ := shiftedValue_mem_range m lsb msb
  exact ⟨physicalValue_mono hlow, physicalValue_mono (Int.le_sub_one_of_lt hhigh)⟩

/-- Bits 16 to 31 of a number of 17 bits are its sign. -/
theorem upper_bytes_eq_sign {v : Int} (hlow : -65536 ≤ v) (hhigh : v < 65536) :
    [BitVec.ofInt 8 (v / 2 ^ 16), BitVec.ofInt 8 (v / 2 ^ 24)] =
      if v < 0 then [(0xFF : Byte), 0xFF] else [0x00, 0x00] := by
  split
  · have h16 : v / 2 ^ 16 = -1 := by omega
    have h24 : v / 2 ^ 24 = -1 := by omega
    rw [h16, h24]
    decide
  · have h16 : v / 2 ^ 16 = 0 := by omega
    have h24 : v / 2 ^ 24 = 0 := by omega
    rw [h16, h24]
    decide

/-- Both modes' physical values are in the range of the wider one. -/
theorem physicalValue_shiftedValue_bounds (m : Mode) (lsb msb : Byte) :
    -40165 ≤ physicalValue (shiftedValue m lsb msb) ∧ physicalValue (shiftedValue m lsb msb) ≤ 40145 := by
  obtain ⟨hlow, hhigh⟩ := physicalValue_shiftedValue_mem_range m lsb msb
  cases m with
  | normal8Bit => exact ⟨le_trans (by decide) hlow, hhigh.trans (by decide)⟩
  | highRes12Bit => exact ⟨hlow, hhigh⟩

/-- Settles O14: the ranges from that of the shifted value in each mode, the upper bytes from the sign. -/
theorem datapathRanges : Obligations.DatapathRanges := by
  obtain ⟨-, -, -, hpayload, -⟩ := physicalPayload
  refine ⟨fun lsb msb => ?_, fun m lsb msb => ⟨?_, ?_⟩⟩
  · obtain ⟨hlow8, hhigh8⟩ := shiftedValue_mem_range .normal8Bit lsb msb
    obtain ⟨hlow12, hhigh12⟩ := shiftedValue_mem_range .highRes12Bit lsb msb
    obtain ⟨hplow8, hphigh8⟩ := physicalValue_shiftedValue_mem_range .normal8Bit lsb msb
    obtain ⟨hplow12, hphigh12⟩ := physicalValue_shiftedValue_mem_range .highRes12Bit lsb msb
    simp only [shiftAmount, rawScaledValue_eq] at *
    refine ⟨?_, ?_, ?_, ?_, ?_, ?_, ?_, ?_, hplow8, hphigh8, hplow12, hphigh12⟩ <;> omega
  · rw [rawScaledValue_eq, Int.mul_emod_right]
  · obtain ⟨hlow, hhigh⟩ := physicalValue_shiftedValue_bounds m lsb msb
    rw [hpayload]
    exact upper_bytes_eq_sign (by omega) (by omega)

/-- The shifted value is the signed value of the arithmetically shifted pair. -/
theorem toInt_sshiftRight_pair (m : Mode) (lsb msb : Byte) :
    ((msb ++ lsb : BitVec 16).sshiftRight (shiftAmount m)).toInt = shiftedValue m lsb msb := by
  rw [BitVec.toInt_sshiftRight, Int.shiftRight_eq_div_pow, shiftedValue_eq_ediv, sext16_eq_toInt, assemble16_eq_append]
  norm_cast

/-- In 16 bits, `4 S` is a shift to the left by 2. -/
theorem ofInt_rawScaledValue (m : Mode) (lsb msb : Byte) :
    BitVec.ofInt 16 (rawScaledValue (shiftedValue m lsb msb)) =
      ((msb ++ lsb : BitVec 16).sshiftRight (shiftAmount m)) <<< 2 := by
  rw [← toInt_sshiftRight_pair, rawScaledValue, BitVec.ofInt_mul, BitVec.ofInt_toInt, BitVec.shiftLeft_eq_mul_twoPow]
  rfl

/-- Sign extension before the shift keeps the shifted value. -/
theorem toInt_sshiftRight_signExtend_pair (m : Mode) (lsb msb : Byte) :
    (((msb ++ lsb : BitVec 16).signExtend 32).sshiftRight (shiftAmount m)).toInt = shiftedValue m lsb msb := by
  rw [BitVec.toInt_sshiftRight, BitVec.toInt_signExtend_of_le (by decide), ← BitVec.toInt_sshiftRight,
    toInt_sshiftRight_pair]

/-- The product `S × 19612` does not overflow in 32 bits. -/
theorem toInt_scaled_pair (m : Mode) (lsb msb : Byte) :
    ((((msb ++ lsb : BitVec 16).signExtend 32).sshiftRight (shiftAmount m)) * 19612#32).toInt =
      shiftedValue m lsb msb * kNum := by
  obtain ⟨hlow, hhigh⟩ := shiftedValue_mem_range m lsb msb
  have hnum : (19612#32).toInt = kNum := by decide
  rw [BitVec.toInt_mul, toInt_sshiftRight_signExtend_pair, hnum, kNum]
  cases m <;> simp only [shiftAmount] at hlow hhigh <;> exact Int.bmod_eq_of_le (by omega) (by omega)

/-- In 32 bits, the physical value is the signed quotient. -/
theorem ofInt_physicalValue (m : Mode) (lsb msb : Byte) :
    BitVec.ofInt 32 (physicalValue (shiftedValue m lsb msb)) =
      ((((msb ++ lsb : BitVec 16).signExtend 32).sshiftRight (shiftAmount m)) * 19612#32).sdiv 1000#32 := by
  have hden : (1000#32).toInt = kDen := by decide
  rw [← BitVec.ofInt_toInt (x := BitVec.sdiv _ _), BitVec.toInt_sdiv_of_ne_or_ne _ _ (.inr (by decide)),
    toInt_scaled_pair, hden, physicalValue]

/-- Settles O15: each profile's word is the pattern of its value, whose bytes are the payload. -/
theorem datapathEqualsMachineWords : Obligations.DatapathEqualsMachineWords := by
  intro m lsb msb
  rw [axisPayload_rawScaled, axisPayload_physicalUnit, ofInt_rawScaledValue, ofInt_physicalValue]
  exact ⟨rfl, rfl⟩

/-- The field of a list that stands behind a part of known length. -/
theorem take_drop_append {xs ys zs : List Byte} {i n : Nat} (hi : xs.length = i) (hn : ys.length = n) :
    ((xs ++ (ys ++ zs)).drop i).take n = ys := by
  rw [List.drop_left' hi, List.take_left' hn]

/-- Settles O16: the payload fields stand one after another behind the header, each `axisBytes` long. -/
theorem lanesAreIndependent : Obligations.LanesAreIndependent := by
  intro m p raw
  rw [frame_eq]
  refine ⟨?_, ?_, ?_⟩
  · exact take_drop_append (xs := [header]) rfl (axisPayload_length ..)
  · exact take_drop_append (xs := header :: axisPayload m p raw.xLsb raw.xMsb)
      (by rw [List.length_cons, axisPayload_length, Nat.add_comm]) (axisPayload_length ..)
  · rw [← List.append_assoc (axisPayload m p raw.xLsb raw.xMsb)]
    exact take_drop_append (xs := header :: (axisPayload m p raw.xLsb raw.xMsb ++ axisPayload m p raw.yLsb raw.yMsb))
      (by simp only [List.length_cons, List.length_append, axisPayload_length]; omega) (axisPayload_length ..)

end Sys2Proof.Machine
end

section
/-!
PROOFS. The bits of `STATUS` (10_state R28).
-/
namespace Sys2Proof.Machine

@[simp] theorem modeBit_eq_true_iff (m : Mode) : modeBit m = true ↔ m = .highRes12Bit := by cases m <;> decide

@[simp] theorem profileBit_eq_true_iff (p : Profile) : profileBit p = true ↔ p = .physicalUnit := by
  cases p <;> decide

/-- The bits of `STATUS` that are no error flag's. -/
theorem getLsbD_statusPort (s : State) :
    (statusPort s).getLsbD 0 = s.cfgValid ∧ (statusPort s).getLsbD 1 = modeBit s.mode ∧
    (statusPort s).getLsbD 2 = profileBit s.profile ∧ (statusPort s).getLsbD 3 = false ∧
    (statusPort s).getLsbD 7 = false := by
  simp only [statusPort, BitVec.getLsbD_append]
  simp

/-- Settles O27: the flags' bits by their codes, the others from the layout. -/
theorem statusPortLayout : Obligations.StatusPortLayout := by
  intro s
  obtain ⟨hvalid, hmode, hprofile, hlow, hhigh⟩ := getLsbD_statusPort s
  exact ⟨hvalid, by rw [hmode, modeBit_eq_true_iff], by rw [hprofile, profileBit_eq_true_iff], hlow,
    getLsbD_statusPort_errorCode s .illegal, getLsbD_statusPort_errorCode s .nocfg,
    getLsbD_statusPort_errorCode s .recfg, hhigh⟩

end Sys2Proof.Machine
end
